-- ==== Sys2Proof/Word.lean ====
section
/-! DEFINITION. The plain value types of SWDLC (00_scope.md R9): a bit is 1 bit, `addr` 8, `data` 32, an ACK 3,
a request header 8. Levels and flags are single bits on which the only operation is exclusive or, so a bit is a `Bool`. -/

namespace Sys2Proof

/-- One bit, and the level of a line (R9). -/
abbrev Bit := Bool

/-- One byte of a word as it is presented on a port. -/
abbrev Byte := BitVec 8

/-- An 8-bit byte address of a target register (20_memory.md R55). -/
abbrev Addr := BitVec 8

/-- A 32-bit data word (20_memory.md R53). -/
abbrev Word32 := BitVec 32

/-- One clock cycle as the wire trace records it (00_scope.md R7): the line driven low or high by SWDLC, released and not
sampled, or released and sampled as 0 or 1. -/
inductive Cycle where
  | d0
  | d1
  | z
  | s0
  | s1
  deriving DecidableEq, Repr

/-- The record of a cycle in which SWDLC drove level `b` (R7). -/
def Cycle.driven : Bit → Cycle
  | false => .d0
  | true  => .d1

/-- The record of a cycle in which SWDLC sampled `b` (R7). -/
def Cycle.sampled : Bit → Cycle
  | false => .s0
  | true  => .s1

end Sys2Proof
end

