-- ==== Sys2Proof/Config.lean ====
section
/-! DEFINITION. What an implementation fixes (00_scope.md Table P, R8) as one record of plain data, the LinkConfig record
(10_state.md R22), and the values the spec leaves open, as constants with no body. The default values of Table P stand
in Machine/TableP.lean. -/

namespace Sys2Proof

/-- What a retry loop does with `PARITY_ERROR` and `PROTOCOL_ERROR` (Table P `NONRETRY_POLICY`, 43_register_access.md R179). -/
inductive NonRetryPolicy where
  | failFast
  | retry
  deriving DecidableEq, Repr

/-- LinkConfig: "pin assignments (clock, data, optional hardware reset), clock delay" (10_state.md R22). Pin identifiers
are natural numbers. -/
structure LinkConfig where
  pinClk    : Nat
  pinDio    : Nat
  pinRst    : Option Nat
  halfDelay : Nat
  deriving DecidableEq, Repr

/-- Table P (00_scope.md R8): every quantity the source leaves to the implementation. 10_state.md R35 counts these among
the control registers, "never (fixed at build)" written; the model carries them in `State.par` (assumption 4). -/
structure Params where
  /-- `RETRY_BOUND`: total `transfer` attempts made by one retry loop. -/
  retryBound     : Nat
  /-- `NONRETRY_POLICY`. -/
  nonretryPolicy : NonRetryPolicy
  /-- `LINE_RESET_HIGH`: cycles high in `lineReset`, at least 50 (R120). -/
  lineResetHigh  : Nat
  /-- `LINE_RESET_IDLE`: cycles low that end `lineReset`. -/
  lineResetIdle  : Nat
  /-- `TRN`: clock cycles in one turnaround (R84). -/
  trn            : Nat
  /-- `POST_IDLE`: low cycles after a `transfer` that ends driving (R151). -/
  postIdle       : Nat
  /-- `JTAG_TO_SWD` (R86). -/
  jtagToSwd      : BitVec 16
  /-- `WAKE_PRE_CYCLES`. -/
  wakePreCycles  : Nat
  /-- `WAKE_PRE_LEVEL`. -/
  wakePreLevel   : Bit
  /-- `SELECTION_ALERT` (R87). -/
  selectionAlert : BitVec 128
  /-- `WAKE_GAP_CYCLES`. -/
  wakeGapCycles  : Nat
  /-- `WAKE_GAP_LEVEL`. -/
  wakeGapLevel   : Bit
  /-- `ACTIVATION_CODE` (R88). -/
  activationCode : BitVec 8
  /-- `DISC_HIGH`: high cycles that open `dormantEnter`. -/
  discHigh       : Nat
  /-- `TO_DORMANT` (R89). -/
  toDormant      : BitVec 16
  /-- `START_BIT` (R75). -/
  startBit       : Bit
  /-- `STOP_BIT` (R75). -/
  stopBit        : Bit
  /-- `PARK_BIT` (R75). -/
  parkBit        : Bit
  /-- `ACK_OK` (R80). -/
  ackOk          : BitVec 3
  /-- `ACK_WAIT` (R80). -/
  ackWait        : BitVec 3
  /-- `ACK_FAULT` (R80). -/
  ackFault       : BitVec 3
  /-- `DUMMY_WORD` (R83). -/
  dummyWord      : Word32
  /-- `DRAIN_PARK` (R83). -/
  drainPark      : Bit
  /-- `DP_ABORT_ADDR` (10_state.md R36). -/
  dpAbortAddr    : Addr
  /-- `ABORT_CLEAR` (10_state.md R36). -/
  abortClear     : Word32
  /-- `DP_RDBUFF_ADDR` (10_state.md R36). -/
  dpRdbuffAddr   : Addr
  /-- `pinOK`, as the list of the pins that satisfy it (40_bitlink_primitives.md R101; assumption 3). -/
  pinsOk         : List Nat
  deriving DecidableEq, Repr

namespace Config

/-- The target's answer to a sample of the released line, when `State.answers` holds no more of them: any bit
(00_scope.md R6). It may depend on the whole wire trace (20_memory.md R64) and is fresh at every sample (40_bitlink_primitives.md
R106: two samples in one cycle "may differ"), hence the counter `State.free` (assumption 5). -/
opaque oracle : List Cycle → Nat → Bit

/-- A bit that nothing constrains: `draw()` of 00_scope.md R13, used by 40_bitlink_primitives.md R106 (U1) and for `res.bit`
when it is not valid (10_state.md R33). Applied to the counter `State.free` (assumptions 6 and 7). -/
opaque drawBit : Nat → Bit

/-- A word that nothing constrains: `res.rdata` when it is not valid (10_state.md R33; assumption 7). -/
opaque drawWord : Nat → Word32

end Config

end Sys2Proof
end

