-- ==== Sys2Proof/Machine/TableP.lean ====
section
/-! DEFINITION. The default values of 00_scope.md Table P, and which parameter records a model accepts. -/

namespace Sys2Proof.Machine

/-- The column "default" of Table P (00_scope.md R8). `pinOK` is OPEN there; the pins 4, 5 and 6 are those that the spec's own
examples use (R100, vector BL14). DESIGN CHOICE (assumption 3), unsafe. -/
def tableP : Params :=
  { retryBound     := 10
    nonretryPolicy := .failFast
    lineResetHigh  := 50
    lineResetIdle  := 2
    trn            := 1
    postIdle       := 0
    jtagToSwd      := 0xE79E#16
    wakePreCycles  := 8
    wakePreLevel   := true
    selectionAlert := 0x19BC0EA2E3DDAFE986852D956209F392#128
    wakeGapCycles  := 4
    wakeGapLevel   := false
    activationCode := 0x1A#8
    discHigh       := 60
    toDormant      := 0xE3BC#16
    startBit       := true
    stopBit        := false
    parkBit        := true
    ackOk          := 0b001#3
    ackWait        := 0b010#3
    ackFault       := 0b100#3
    dummyWord      := 0x00000000#32
    drainPark      := true
    dpAbortAddr    := 0x00#8
    abortClear     := 0x0000001F#32
    dpRdbuffAddr   := 0x0C#8
    pinsOk         := [4, 5, 6] }

/-- The LinkConfig of the example of 40_bitlink_primitives.md R100, on the configuration port until a host drives it.
DESIGN CHOICE (assumption 2), unsafe. -/
def exampleConfig : LinkConfig :=
  { pinClk := 4, pinDio := 5, pinRst := none, halfDelay := 0 }

end Sys2Proof.Machine
end

