-- ==== Sys2Proof/Machine/Operands.lean ====
section
/-! DEFINITION. Every operand form: the order in which a field's bits are sent and received (00_scope.md R10), the assembly of a
received value, the alignment of a register address (20_memory.md R55), the check of a LinkConfig (40_bitlink_primitives.md R101),
and which parameter records are legal (41_bitlink_sequences.md R120). -/

namespace Sys2Proof.Machine

/-- The bits `lo`, `lo + 1`, … of `v`, `n` of them, in that order. -/
def bitsFrom {w : Nat} (v : BitVec w) (lo : Nat) : Nat → List Bit
  | 0     => []
  | n + 1 => v.getLsbD lo :: bitsFrom v (lo + 1) n

/-- The bits of `v` in wire order: bit 0 first (R10, 20_memory.md R54). -/
def wireBits {w : Nat} (v : BitVec w) : List Bit := bitsFrom v 0 w

/-- The number whose bit `i` is the `i`-th entry, counting from 0 (R10, 42_transaction.md R157). -/
def natOfWire : List Bit → Nat
  | []      => 0
  | b :: bs => b.toNat + 2 * natOfWire bs

/-- A `w`-bit value assembled from samples, the first sample bit 0 (R10, R157). -/
def assemble (w : Nat) (bs : List Bit) : BitVec w := BitVec.ofNat w (natOfWire bs)

/-- `addr[1:0] = 0`: a register address is word aligned (20_memory.md R55). -/
def aligned (addr : Addr) : Bool := !addr.getLsbD 0 && !addr.getLsbD 1

/-- The platform predicate `pinOK` (40_bitlink_primitives.md R101). -/
def pinOk (par : Params) (pin : Nat) : Bool := par.pinsOk.contains pin

/-- The reset pin's part of `configOK`: absent, or good and different from both other pins (R101). -/
def rstPinOk (par : Params) (c : LinkConfig) : Bool :=
  match c.pinRst with
  | none   => true
  | some p => pinOk par p && p != c.pinClk && p != c.pinDio

/-- `configOK(config)` (40_bitlink_primitives.md R101); every `halfDelay` is accepted. -/
def configOk (par : Params) (c : LinkConfig) : Bool :=
  pinOk par c.pinClk && pinOk par c.pinDio && c.pinClk != c.pinDio && rstPinOk par c

/-- The parameter records a model accepts: "`LINE_RESET_HIGH` must be at least 50 (a model rejects a configuration record with a
smaller value)" (41_bitlink_sequences.md R120), and the two register addresses are word aligned as R55 requires of every
register address. DEDUCED (assumption 20), safe. -/
def paramsLegal (par : Params) : Bool :=
  decide (50 ≤ par.lineResetHigh) && aligned par.dpAbortAddr && aligned par.dpRdbuffAddr

end Sys2Proof.Machine
end

