-- ==== Sys2Proof/Syntax.lean ====
section
/-! DEFINITION. The instruction set, whole: one constructor per row of spec/opcode_table.json. Rows 1 to 17 are the commands
of 30_encoding.md Table CS with their operands in Table CS's order; rows 18 to 32 the reserved command codes (R72); then the
wire formats of 00_scope.md R1(b): the sixteen request headers (Table RQ), the eight acknowledgement values (Table AK) and the
four wire constants (R86 to R89). `init` takes its LinkConfig on the configuration port, not in the word (R71). -/

namespace Sys2Proof

/-- One constructor per row of spec/opcode_table.json. -/
inductive Instr where
  -- the seventeen commands
  | init
  | clockPulse
  | driveLine (bit : Bit)
  | releaseLine
  | readLine
  | setResetPin (level : Bit)
  | setConnected (flag : Bit)
  | lineReset
  | switchSequence
  | dormantWake
  | dormantEnter
  | transfer (addr : Addr) (isAP isRead : Bit) (data : Word32)
  | dpRead (addr : Addr)
  | dpWrite (addr : Addr) (data : Word32)
  | apRead (addr : Addr)
  | apWrite (addr : Addr) (data : Word32)
  | clearErrors
  -- the fifteen reserved command codes
  | reserved17
  | reserved18
  | reserved19
  | reserved20
  | reserved21
  | reserved22
  | reserved23
  | reserved24
  | reserved25
  | reserved26
  | reserved27
  | reserved28
  | reserved29
  | reserved30
  | reserved31
  -- the sixteen request headers
  | reqDpW0
  | reqDpW4
  | reqDpW8
  | reqDpWC
  | reqDpR0
  | reqDpR4
  | reqDpR8
  | reqDpRC
  | reqApW0
  | reqApW4
  | reqApW8
  | reqApWC
  | reqApR0
  | reqApR4
  | reqApR8
  | reqApRC
  -- the eight acknowledgement values
  | ackProtocolError000
  | ackOk
  | ackWait
  | ackProtocolError011
  | ackFault
  | ackProtocolError101
  | ackProtocolError110
  | ackProtocolError111
  -- the four wire constants
  | jtagToSwd
  | selectionAlert
  | activationCode
  | toDormant
  deriving DecidableEq, Repr

end Sys2Proof
end

