-- ==== Sys2Proof/WellFormed.lean ====
section
/-! DEFINITION. Which instructions are valid encodings (30_encoding.md R90): the operands' widths are in their types, so what is
left is R90 (a), a reserved command code, and R90 (b), an `addr` operand with `addr[1:0] != 0`. An ill-formed command still has
its meaning (it returns `InvalidArgument`) and still round-trips through the encoder. R90 (e), a bad LinkConfig, is
`Machine.configOk`; R90 (c) and (d) are about received bits. -/

namespace Sys2Proof

/-- The command code is not one of the reserved codes 17 to 31 (R72, R90 (a)). -/
def Instr.codeAssigned : Instr → Bool
  | .reserved17 | .reserved18 | .reserved19 | .reserved20 | .reserved21 | .reserved22 | .reserved23 | .reserved24
  | .reserved25 | .reserved26 | .reserved27 | .reserved28 | .reserved29 | .reserved30 | .reserved31 => false
  | .init | .clockPulse | .driveLine _ | .releaseLine | .readLine | .setResetPin _ | .setConnected _ | .lineReset
  | .switchSequence | .dormantWake | .dormantEnter | .transfer _ _ _ _ | .dpRead _ | .dpWrite _ _ | .apRead _ | .apWrite _ _
  | .clearErrors | .reqDpW0 | .reqDpW4 | .reqDpW8 | .reqDpWC | .reqDpR0 | .reqDpR4 | .reqDpR8 | .reqDpRC | .reqApW0 | .reqApW4
  | .reqApW8 | .reqApWC | .reqApR0 | .reqApR4 | .reqApR8 | .reqApRC | .ackProtocolError000 | .ackOk | .ackWait
  | .ackProtocolError011 | .ackFault | .ackProtocolError101 | .ackProtocolError110 | .ackProtocolError111 | .jtagToSwd
  | .selectionAlert | .activationCode | .toDormant => true

/-- The register address of the five commands that take one is word aligned (R55, R90 (b)). -/
def Instr.addrAligned : Instr → Bool
  | .transfer addr _ _ _ => Machine.aligned addr
  | .dpRead addr         => Machine.aligned addr
  | .dpWrite addr _      => Machine.aligned addr
  | .apRead addr         => Machine.aligned addr
  | .apWrite addr _      => Machine.aligned addr
  | .init | .clockPulse | .driveLine _ | .releaseLine | .readLine | .setResetPin _ | .setConnected _ | .lineReset
  | .switchSequence | .dormantWake | .dormantEnter | .clearErrors | .reserved17 | .reserved18 | .reserved19 | .reserved20
  | .reserved21 | .reserved22 | .reserved23 | .reserved24 | .reserved25 | .reserved26 | .reserved27 | .reserved28 | .reserved29
  | .reserved30 | .reserved31 | .reqDpW0 | .reqDpW4 | .reqDpW8 | .reqDpWC | .reqDpR0 | .reqDpR4 | .reqDpR8 | .reqDpRC
  | .reqApW0 | .reqApW4 | .reqApW8 | .reqApWC | .reqApR0 | .reqApR4 | .reqApR8 | .reqApRC | .ackProtocolError000 | .ackOk
  | .ackWait | .ackProtocolError011 | .ackFault | .ackProtocolError101 | .ackProtocolError110 | .ackProtocolError111
  | .jtagToSwd | .selectionAlert | .activationCode | .toDormant => true

/-- A valid encoding in the sense of 30_encoding.md R90. -/
def Instr.wellFormed (i : Instr) : Bool := i.codeAssigned && i.addrAligned

end Sys2Proof
end

