-- ==== Sys2Proof/Decode.lean ====
section
/-! DEFINITION. The decoder, total on any bytes and rejecting by name, and the encoder. A word is presented as bytes, least
significant byte first (assumption 12). Its length tells the format of spec/opcode_table.json: 6 bytes a command word (CMD48,
30_encoding.md Table CW), 2 a 16-bit wire constant, 16 the 128-bit one, 1 a request header, an acknowledgement value or the
activation code, whose sets of values are disjoint. -/

namespace Sys2Proof

/-- Why a list of bytes is no word of the table. -/
inductive DecodeError where
  /-- No format has this number of bytes. -/
  | badLength (n : Nat)
  /-- One byte that is no request header, no ACK value and not the activation code. -/
  | notAWireByte (v : Nat)
  /-- Sixteen bits that are not one of the two 16-bit constants. -/
  | notAWire16 (v : Nat)
  /-- 128 bits that are not the selection alert. -/
  | notAWire128 (v : Nat)
  deriving DecidableEq, Repr

/-- What the decoder answers. -/
inductive Decoded where
  | instr (i : Instr)
  | rejected (e : DecodeError)
  deriving DecidableEq, Repr

/-- The number whose byte `k` is the `k`-th entry, counting from 0. -/
def natOfBytes : List Byte → Nat
  | []      => 0
  | b :: bs => b.toNat + 256 * natOfBytes bs

/-- The `n` low bytes of `v`, least significant first. -/
def bytesLE : Nat → Nat → List Byte
  | 0,     _ => []
  | n + 1, v => BitVec.ofNat 8 v :: bytesLE n (v / 256)

/-- Table CW bits 47:43, `code`. -/
def cwCode (w : BitVec 48) : BitVec 5 := w.extractLsb' 43 5
/-- Table CW bit 42, `isAP`. -/
def cwIsAP (w : BitVec 48) : Bit := w.getLsbD 42
/-- Table CW bit 41, `isRead`. -/
def cwIsRead (w : BitVec 48) : Bit := w.getLsbD 41
/-- Table CW bit 40, `b` (`op.bit`, `op.level` or `op.flag`). -/
def cwB (w : BitVec 48) : Bit := w.getLsbD 40
/-- Table CW bits 39:32, `addr`. -/
def cwAddr (w : BitVec 48) : Addr := w.extractLsb' 32 8
/-- Table CW bits 31:0, `data`. -/
def cwData (w : BitVec 48) : Word32 := w.extractLsb' 0 32

/-- A command word decodes by its code alone (30_encoding.md R71, Table CS); each command reads only the fields its row in
Table CW names. Codes 17 to 31 are the reserved ones (R72). -/
def decodeCommand (w : BitVec 48) : Instr :=
  match (cwCode w).toNat with
  | 0  => .init
  | 1  => .clockPulse
  | 2  => .driveLine (cwB w)
  | 3  => .releaseLine
  | 4  => .readLine
  | 5  => .setResetPin (cwB w)
  | 6  => .setConnected (cwB w)
  | 7  => .lineReset
  | 8  => .switchSequence
  | 9  => .dormantWake
  | 10 => .dormantEnter
  | 11 => .transfer (cwAddr w) (cwIsAP w) (cwIsRead w) (cwData w)
  | 12 => .dpRead (cwAddr w)
  | 13 => .dpWrite (cwAddr w) (cwData w)
  | 14 => .apRead (cwAddr w)
  | 15 => .apWrite (cwAddr w) (cwData w)
  | 16 => .clearErrors
  | 17 => .reserved17
  | 18 => .reserved18
  | 19 => .reserved19
  | 20 => .reserved20
  | 21 => .reserved21
  | 22 => .reserved22
  | 23 => .reserved23
  | 24 => .reserved24
  | 25 => .reserved25
  | 26 => .reserved26
  | 27 => .reserved27
  | 28 => .reserved28
  | 29 => .reserved29
  | 30 => .reserved30
  | _  => .reserved31

/-- One byte on the wire side: a request header (30_encoding.md Table RQ), an acknowledgement value (Table AK) or the activation
code (R88). -/
def decodeWireByte (v : Nat) : Decoded :=
  match v with
  | 0x81 => .instr .reqDpW0
  | 0xA9 => .instr .reqDpW4
  | 0xB1 => .instr .reqDpW8
  | 0x99 => .instr .reqDpWC
  | 0xA5 => .instr .reqDpR0
  | 0x8D => .instr .reqDpR4
  | 0x95 => .instr .reqDpR8
  | 0xBD => .instr .reqDpRC
  | 0xA3 => .instr .reqApW0
  | 0x8B => .instr .reqApW4
  | 0x93 => .instr .reqApW8
  | 0xBB => .instr .reqApWC
  | 0x87 => .instr .reqApR0
  | 0xAF => .instr .reqApR4
  | 0xB7 => .instr .reqApR8
  | 0x9F => .instr .reqApRC
  | 0b000 => .instr .ackProtocolError000
  | 0b001 => .instr .ackOk
  | 0b010 => .instr .ackWait
  | 0b011 => .instr .ackProtocolError011
  | 0b100 => .instr .ackFault
  | 0b101 => .instr .ackProtocolError101
  | 0b110 => .instr .ackProtocolError110
  | 0b111 => .instr .ackProtocolError111
  | 0x1A => .instr .activationCode
  | _    => .rejected (.notAWireByte v)

/-- The two 16-bit constants (30_encoding.md R86, R89). -/
def decodeWire16 (v : Nat) : Decoded :=
  if v = 0xE79E then .instr .jtagToSwd
  else if v = 0xE3BC then .instr .toDormant
  else .rejected (.notAWire16 v)

/-- The 128-bit constant (30_encoding.md R87). -/
def decodeWire128 (v : Nat) : Decoded :=
  if v = 0x19BC0EA2E3DDAFE986852D956209F392 then .instr .selectionAlert
  else .rejected (.notAWire128 v)

/-- The decoder: total on any list of bytes. -/
def decode (bytes : List Byte) : Decoded :=
  match bytes.length with
  | 1  => decodeWireByte (natOfBytes bytes)
  | 2  => decodeWire16 (natOfBytes bytes)
  | 6  => .instr (decodeCommand (BitVec.ofNat 48 (natOfBytes bytes)))
  | 16 => decodeWire128 (natOfBytes bytes)
  | n  => .rejected (.badLength n)

/-- A command word, Table CW from bit 47 down: `code ++ isAP ++ isRead ++ b ++ addr ++ data`; a field the command does not use
is zero. -/
def commandWord (code : BitVec 5) (isAP isRead b : Bit) (addr : Addr) (data : Word32) : BitVec 48 :=
  code ++ (BitVec.ofBool isAP ++ (BitVec.ofBool isRead ++ (BitVec.ofBool b ++ (addr ++ data))))

/-- The six bytes of a command word. -/
def commandBytes (code : BitVec 5) (isAP isRead b : Bit) (addr : Addr) (data : Word32) : List Byte :=
  bytesLE 6 (commandWord code isAP isRead b addr data).toNat

/-- A command word with no operand. -/
def plainCommand (code : BitVec 5) : List Byte := commandBytes code false false false 0#8 0#32

/-- The encoder, from the same tables of the spec: Table CS and Table CW for the commands, R72 for the reserved codes, Table RQ,
Table AK and R86 to R89 for the wire formats. -/
def encode : Instr → List Byte
  | .init                           => plainCommand 0#5
  | .clockPulse                     => plainCommand 1#5
  | .driveLine b                    => commandBytes 2#5 false false b 0#8 0#32
  | .releaseLine                    => plainCommand 3#5
  | .readLine                       => plainCommand 4#5
  | .setResetPin b                  => commandBytes 5#5 false false b 0#8 0#32
  | .setConnected b                 => commandBytes 6#5 false false b 0#8 0#32
  | .lineReset                      => plainCommand 7#5
  | .switchSequence                 => plainCommand 8#5
  | .dormantWake                    => plainCommand 9#5
  | .dormantEnter                   => plainCommand 10#5
  | .transfer addr isAP isRead data => commandBytes 11#5 isAP isRead false addr data
  | .dpRead addr                    => commandBytes 12#5 false false false addr 0#32
  | .dpWrite addr data              => commandBytes 13#5 false false false addr data
  | .apRead addr                    => commandBytes 14#5 false false false addr 0#32
  | .apWrite addr data              => commandBytes 15#5 false false false addr data
  | .clearErrors                    => plainCommand 16#5
  | .reserved17                     => plainCommand 17#5
  | .reserved18                     => plainCommand 18#5
  | .reserved19                     => plainCommand 19#5
  | .reserved20                     => plainCommand 20#5
  | .reserved21                     => plainCommand 21#5
  | .reserved22                     => plainCommand 22#5
  | .reserved23                     => plainCommand 23#5
  | .reserved24                     => plainCommand 24#5
  | .reserved25                     => plainCommand 25#5
  | .reserved26                     => plainCommand 26#5
  | .reserved27                     => plainCommand 27#5
  | .reserved28                     => plainCommand 28#5
  | .reserved29                     => plainCommand 29#5
  | .reserved30                     => plainCommand 30#5
  | .reserved31                     => plainCommand 31#5
  | .reqDpW0                        => [0x81#8]
  | .reqDpW4                        => [0xA9#8]
  | .reqDpW8                        => [0xB1#8]
  | .reqDpWC                        => [0x99#8]
  | .reqDpR0                        => [0xA5#8]
  | .reqDpR4                        => [0x8D#8]
  | .reqDpR8                        => [0x95#8]
  | .reqDpRC                        => [0xBD#8]
  | .reqApW0                        => [0xA3#8]
  | .reqApW4                        => [0x8B#8]
  | .reqApW8                        => [0x93#8]
  | .reqApWC                        => [0xBB#8]
  | .reqApR0                        => [0x87#8]
  | .reqApR4                        => [0xAF#8]
  | .reqApR8                        => [0xB7#8]
  | .reqApRC                        => [0x9F#8]
  | .ackProtocolError000            => [0b000#8]
  | .ackOk                          => [0b001#8]
  | .ackWait                        => [0b010#8]
  | .ackProtocolError011            => [0b011#8]
  | .ackFault                       => [0b100#8]
  | .ackProtocolError101            => [0b101#8]
  | .ackProtocolError110            => [0b110#8]
  | .ackProtocolError111            => [0b111#8]
  | .jtagToSwd                      => bytesLE 2 0xE79E
  | .selectionAlert                 => bytesLE 16 0x19BC0EA2E3DDAFE986852D956209F392
  | .activationCode                 => [0x1A#8]
  | .toDormant                      => bytesLE 2 0xE3BC

/-- How many bytes a table row of `nbits` bits is presented in: 1, 2, 6 or 16 (assumption 12). -/
def tableWidth (nbits : Nat) : Nat :=
  if nbits ≤ 8 then 1 else if nbits ≤ 16 then 2 else if nbits ≤ 48 then 6 else 16

/-- The bytes of an instruction whose `nbits` table bits are `w`; every bit above `nbits` is 0. -/
def tableBytes (nbits w : Nat) : List Byte := bytesLE (tableWidth nbits) (w % 2 ^ nbits)

/-- The instruction the decoder reads from a word of spec/opcode_table.json, `none` where it refuses. -/
def decodeTableWord (nbits w : Nat) : Option Instr :=
  match decode (tableBytes nbits w) with
  | .instr i    => some i
  | .rejected _ => none

end Sys2Proof
end

