-- ==== Sys2Proof/Machine/State.lean ====
section
/-! DEFINITION. The state of SWDLC as plain data (10_state.md), the reasons a step can stop, and the state at reset
(Table RV, column "before first init"). -/

namespace Sys2Proof.Machine

/-- LinkState, `{initialized, connected, driving}` (10_state.md R24 to R28). -/
structure LinkState where
  initialized : Bool
  connected   : Bool
  driving     : Bool
  deriving DecidableEq, Repr

/-- A pin that is not driven before the first `init` and always driven after it (R21, R41). -/
inductive ClockPin where
  | notDriven
  | driven (level : Bit)
  deriving DecidableEq, Repr

/-- NRESET: not driven before the first `init`; after it, driven when a reset pin is configured and absent otherwise (R21,
Table RV). -/
inductive ResetPin where
  | notDriven
  | absent
  | driven (level : Bit)
  deriving DecidableEq, Repr

/-- The operand registers of the command in flight (R30). -/
structure OperandRegs where
  addr   : Addr
  isAP   : Bit
  isRead : Bit
  wdata  : Word32
  bit    : Bit
  level  : Bit
  flag   : Bit
  config : LinkConfig
  deriving DecidableEq, Repr

/-- The phase names of `transfer` (42_transaction.md R140, R154). -/
inductive Phase where
  | idle
  | lead
  | header
  | trn1
  | ack
  | rdata
  | rparity
  | trn2
  | wdata
  | wparity
  | drain
  | dpark
  | post
  deriving DecidableEq, Repr

/-- The sequencer (R31): `seq.phase`, `seq.bit`, `seq.attempt`. -/
structure Sequencer where
  phase   : Phase
  bit     : Nat
  attempt : Nat
  deriving DecidableEq, Repr

/-- The sequencer between commands: `IDLE`, 0, 0 (R31, Table RV). -/
def Sequencer.idle : Sequencer := { phase := .idle, bit := 0, attempt := 0 }

/-- The Acknowledgement, "one of `OK | WAIT | FAULT | PROTOCOL_ERROR`" (42_transaction.md R146). -/
inductive Ack where
  | ok
  | wait
  | fault
  | protocolError
  deriving DecidableEq, Repr

/-- The outcome of `transfer` (42_transaction.md R152, Table TO): `OK` with data on a read, `OK` on a write, the other three
acknowledgements, and `PARITY_ERROR`. -/
inductive FrameOutcome where
  | okData (rdata : Word32)
  | ok
  | wait
  | fault
  | protocolError
  | parityError
  deriving DecidableEq, Repr

/-- The error classes of 60_exceptions.md R190, Table RC. The last three are never raised by SWDLC. -/
inductive ErrorClass where
  | invalidArgument
  | invalidState
  | protocolTimeout
  | protocolFault
  | unexpectedDevice
  | verificationFailed
  | resourceExhausted
  deriving DecidableEq, Repr

/-- A result class (R190): success or one of the seven error classes. -/
inductive Status where
  | ok
  | error (c : ErrorClass)
  deriving DecidableEq, Repr

/-- The response port (10_state.md R33). `info` is the outcome that `Ok(outcome)` or `Err(class, info)` carries (R190;
assumption 23); `ack = none` is `NONE`. -/
structure Response where
  status      : Status
  info        : Option FrameOutcome
  ack         : Option Ack
  parityError : Bool
  rdata       : Word32
  bit         : Bit
  attempts    : Nat
  deriving DecidableEq, Repr

/-- One word the host presents: its bytes on the command port, and for `init` the LinkConfig it drives on the configuration
port (`none`: it leaves that port as it is). R29, R71; assumption 1. -/
structure PortWord where
  bytes  : List Byte
  config : Option LinkConfig
  deriving DecidableEq, Repr

/-- The state of SWDLC. -/
structure State where
  /-- Table P, fixed at build (R8, R35). -/
  par      : Params
  /-- LinkConfig (R22, R23). -/
  cfg      : LinkConfig
  /-- LinkState (R24). -/
  link     : LinkState
  /-- The level on SWCLK (R21). -/
  clk      : ClockPin
  /-- The output latch of SWDIO (R21). -/
  dioOut   : Bit
  /-- The driver enable of SWDIO (R21). -/
  dioOE    : Bool
  /-- The level on NRESET (R21). -/
  rst      : ResetPin
  /-- The operand registers (R30). -/
  op       : OperandRegs
  /-- The sequencer (R31). -/
  seq      : Sequencer
  /-- A command is in flight (R32). -/
  busy     : Bool
  /-- The response port (R33). -/
  res      : Response
  /-- The last value sampled since the last pulse (R40). -/
  sampled  : Option Bit
  /-- The wire trace (R7, R40). -/
  trace    : List Cycle
  /-- The levels written to NRESET (R40). -/
  rstTrace : List Bit
  /-- The model's own: the words the host will present, in order (assumption 1). -/
  port     : List PortWord
  /-- The model's own: the bits the target will answer, in order (R6; assumption 5). -/
  answers  : List Bit
  /-- The model's own: the counter of the free values (assumption 6). -/
  free     : Nat
  deriving DecidableEq, Repr

/-- Why the machine stops with a fault. No instruction raises one. -/
inductive Fault where
  /-- Raised by `step` when the parameter record is not legal (41_bitlink_sequences.md R120: "a model rejects a configuration
  record with a smaller value"). Safe: nothing is claimed of such a machine. -/
  | illegalParameters
  deriving DecidableEq, Repr

/-- Why a step has no meaning. -/
inductive Refusal where
  /-- Raised by an arm of `exec` whose instruction has no meaning yet; no arm is left in that state. Safe. -/
  | notModelled (mnemonic : String)
  /-- Raised by `step` when `S.busy` is true: "The model gives the host no move while `S.busy` is true" (10_state.md R32, U7).
  No step leaves `busy` true, so it is not reached from reset. Safe. -/
  | hostWhileBusy
  /-- Raised by `step` on bytes that are no word of the opcode table, which no host can present. Safe. -/
  | undecodable (bytes : List Byte)
  deriving DecidableEq, Repr

/-- The state before the first `init`, which is also the state after a loss of power (10_state.md R41 Table RV, R42, R220). The
fields that Table RV calls unspecified hold the values of assumption 2 (DESIGN CHOICE, unsafe). -/
def State.reset : State :=
  { par      := tableP
    cfg      := { pinClk := 0, pinDio := 0, pinRst := none, halfDelay := 0 }
    link     := { initialized := false, connected := false, driving := false }
    clk      := .notDriven
    dioOut   := false
    dioOE    := false
    rst      := .notDriven
    op       := { addr := 0#8, isAP := false, isRead := false, wdata := 0#32, bit := false, level := false, flag := false,
                  config := exampleConfig }
    seq      := Sequencer.idle
    busy     := false
    res      := { status := .ok, info := none, ack := none, parityError := false, rdata := 0#32, bit := false, attempts := 0 }
    sampled  := none
    trace    := []
    rstTrace := []
    port     := []
    answers  := []
    free     := 0 }

end Sys2Proof.Machine
end

