-- ==== Sys2Proof/Machine/Flags.lean ====
section
/-! DEFINITION. The flag computations of the spec, pure: parity (00_scope.md R11), the request header with its parity
(30_encoding.md R74 to R78), the decoding of an acknowledgement (R80), and how outcomes and results appear on the response port
(10_state.md R33, 60_exceptions.md R190). -/

namespace Sys2Proof.Machine

/-- The exclusive or of bits `0` to `n - 1` of `v`. -/
def xorFold {w : Nat} (v : BitVec w) : Nat → Bit
  | 0     => false
  | n + 1 => xorFold v n ^^ v.getLsbD n

/-- `parity32(v)`: `v[0] xor v[1] xor ... xor v[31]` (R11). -/
def parity32 (v : Word32) : Bit := xorFold v 32

/-- `parity4(a, b, c, d)` (R11). -/
def parity4 (a b c d : Bit) : Bit := a ^^ b ^^ c ^^ d

/-- `header(isAP, isRead, addr)` (42_transaction.md R145): `PARK_BIT ++ STOP_BIT ++ P ++ A3 ++ A2 ++ RnW ++ APnDP ++ START_BIT`
(30_encoding.md R74), the most significant bit first. -/
def header (par : Params) (isAP isRead : Bit) (addr : Addr) : BitVec 8 :=
  BitVec.ofBool par.parkBit ++ (BitVec.ofBool par.stopBit
    ++ (BitVec.ofBool (parity4 isAP isRead (addr.getLsbD 2) (addr.getLsbD 3))
    ++ (BitVec.ofBool (addr.getLsbD 3) ++ (BitVec.ofBool (addr.getLsbD 2)
    ++ (BitVec.ofBool isRead ++ (BitVec.ofBool isAP ++ BitVec.ofBool par.startBit))))))

/-- `decodeAck(a)` (42_transaction.md R146, 30_encoding.md Table AK): every value that is not one of the three codes is
`PROTOCOL_ERROR`. -/
def decodeAck (par : Params) (a : BitVec 3) : Ack :=
  if a = par.ackOk then .ok
  else if a = par.ackWait then .wait
  else if a = par.ackFault then .fault
  else .protocolError

/-- The Acknowledgement behind an outcome: a parity error comes with `OK`, "because the target did acknowledge" (R149). -/
def FrameOutcome.toAck : FrameOutcome → Ack
  | .okData _      => .ok
  | .ok            => .ok
  | .wait          => .wait
  | .fault         => .fault
  | .protocolError => .protocolError
  | .parityError   => .ok

/-- The result of a command: `Ok`, `Ok(v)` or `Err(class, info)` (30_encoding.md R70, 60_exceptions.md R190). -/
inductive CmdResult where
  | ok
  | okBit (b : Bit)
  | okWord (w : Word32)
  | okOutcome (o : FrameOutcome)
  | err (c : ErrorClass) (info : Option FrameOutcome)
  deriving DecidableEq, Repr

/-- `res.status` of a result (R190). -/
def CmdResult.status : CmdResult → Status
  | .ok          => .ok
  | .okBit _     => .ok
  | .okWord _    => .ok
  | .okOutcome _ => .ok
  | .err c _     => .error c

/-- The outcome a result carries (R190). -/
def CmdResult.info : CmdResult → Option FrameOutcome
  | .ok          => none
  | .okBit _     => none
  | .okWord _    => none
  | .okOutcome o => some o
  | .err _ info  => info

/-- The data word a result carries (R33: `res.rdata` is valid "only when `res.status = Ok` and the command returns data"). -/
def CmdResult.rdata? : CmdResult → Option Word32
  | .okWord w             => some w
  | .okOutcome (.okData w) => some w
  | _                     => none

/-- The line bit a result carries (R33: `res.bit` is valid only for `readLine`). -/
def CmdResult.bit? : CmdResult → Option Bit
  | .okBit b => some b
  | _        => none

/-- The numeric code of a result class (60_exceptions.md Table RC). -/
def Status.code : Status → Nat
  | .ok                        => 0
  | .error .invalidArgument    => 1
  | .error .invalidState       => 2
  | .error .protocolTimeout    => 3
  | .error .protocolFault      => 4
  | .error .unexpectedDevice   => 5
  | .error .verificationFailed => 6
  | .error .resourceExhausted  => 7

/-- `res.ack`: the acknowledgement of the outcome the result carries (R190: `info` "is also in `res.ack` and `res.parityError`"),
and otherwise the last one decoded, `NONE` when no request went out (R33). DEDUCED (assumption 8). -/
def finalAck (r : CmdResult) (last : Option Ack) : Option Ack :=
  match r.info with
  | some o => some o.toAck
  | none   => last

/-- `res.parityError`, in the same way (R33, R190). -/
def finalParityError (r : CmdResult) (last : Bool) : Bool :=
  match r.info with
  | some o => o == .parityError
  | none   => last

end Sys2Proof.Machine
end

