-- ==== Sys2Proof/Machine/Ops.lean ====
section
/-! DEFINITION. The named operations over the state, each written from its pseudocode in the spec: the clock and line primitives
(40_bitlink_primitives.md R103 to R112), the two transitions of the turnaround machine (42_transaction.md R141 to R143), the entry
and return sequence of every command (R109, 10_state.md R33), which is also how an error is taken (60_exceptions.md R202), and the
acceptance of a word from the command port. -/

namespace Sys2Proof.Machine

/-! ### Clock and line -/

/-- `wait(d)`: "does nothing" (70_reset_and_hazards.md R240). -/
def State.wait (_ : Nat) (s : State) : State := s

/-- Drive SWCLK to a level. -/
def State.setClk (level : Bit) (s : State) : State := { s with clk := .driven level }

/-- The record of the cycle being ended (R103). -/
def State.cycleRecord (s : State) : Cycle :=
  if s.dioOE then Cycle.driven s.dioOut
  else match s.sampled with
    | some b => Cycle.sampled b
    | none   => .z

/-- Append the record of the cycle and forget the sample (R103). -/
def State.record (s : State) : State := { s with trace := s.trace ++ [s.cycleRecord], sampled := none }

/-- `pulse()` (R103): SWCLK low, wait, SWCLK high, wait, record. -/
def pulse (s : State) : State :=
  let s1 := (s.setClk false).wait s.cfg.halfDelay
  let s2 := (s1.setClk true).wait s1.cfg.halfDelay
  s2.record

/-- `drive(b)` (R104). -/
def drive (b : Bit) (s : State) : State :=
  { s with dioOut := b, dioOE := true, link := { s.link with driving := true } }

/-- `release()` (R105): `dioOut` keeps its value. -/
def release (s : State) : State :=
  { s with dioOE := false, link := { s.link with driving := false } }

/-- One answer of the target to a sample of the released line (00_scope.md R6): the next of `State.answers`, and past its end any
bit. -/
def oracleBit (s : State) : Bit × State :=
  match s.answers with
  | b :: rest => (b, { s with answers := rest })
  | []        => (Config.oracle s.trace s.free, { s with free := s.free + 1 })

/-- `draw()` of a bit (00_scope.md R13). -/
def draw (s : State) : Bit × State := (Config.drawBit s.free, { s with free := s.free + 1 })

/-- `sample()` (R106): while SWDLC drives, an unconstrained bit, and `sampled` is not set (U1); otherwise the oracle's. -/
def sample (s : State) : Bit × State :=
  if s.dioOE then draw s
  else
    let a := oracleBit s
    (a.1, { a.2 with sampled := some a.1 })

/-! ### The sequencer's fields (10_state.md R31, 42_transaction.md R154) -/

/-- Enter a phase; `seq.bit` counts its cycles from 0 (42_transaction.md R154). -/
def State.enter (p : Phase) (s : State) : State := { s with seq := { s.seq with phase := p, bit := 0 } }

/-- The index, inside its phase, of the cycle about to run (R31, R154). -/
def State.atBit (i : Nat) (s : State) : State := { s with seq := { s.seq with bit := i } }

/-- The count of attempts already made in the running retry loop. -/
def State.setAttempt (n : Nat) (s : State) : State := { s with seq := { s.seq with attempt := n } }

/-! ### Multi-bit helpers -/

/-- Send bits, the first of them bit number `i`: drive, then pulse, each (R110). -/
def sendBits (i : Nat) : List Bit → State → State
  | [],      s => s
  | b :: bs, s => sendBits (i + 1) bs (pulse (drive b (s.atBit i)))

/-- `writeBits(v, n)` for a value of width `n` (R110). -/
def writeBits {w : Nat} (v : BitVec w) (s : State) : State := sendBits 0 (wireBits v) s

/-- Receive `n` bits, the first of them bit number `i`: sample, then pulse, each (R111). -/
def receiveBits (i : Nat) : Nat → State → List Bit × State
  | 0,     s => ([], s)
  | n + 1, s =>
    let a := sample (s.atBit i)
    let r := receiveBits (i + 1) n (pulse a.2)
    (a.1 :: r.1, r.2)

/-- `readBits(n)` (R111), the value assembled bit 0 first. -/
def readBits (n : Nat) (s : State) : BitVec n × State :=
  let r := receiveBits 0 n s
  (assemble n r.1, r.2)

/-- `cycles(n, level)` (R112): the same bit sent `n` times, each cycle counted in `seq.bit` (R154). -/
def cycles (level : Bit) (n : Nat) (s : State) : State := sendBits 0 (List.replicate n level) s

/-- `n` pulses with the line left as it is, the first of them cycle number `i`: the cycles of a turnaround (R141, R142, R154). -/
def pulses (i : Nat) : Nat → State → State
  | 0,     s => s
  | n + 1, s => pulses (i + 1) n (pulse (s.atBit i))

/-! ### The turnaround machine (42_transaction.md R143, Table TA) -/

/-- `ensureDriving()` (R141). -/
def ensureDriving (s : State) : State :=
  if s.link.driving then s
  else
    let t := pulses 0 s.par.trn s
    drive t.dioOut t

/-- `turnToTarget()` (R142). -/
def turnToTarget (s : State) : State :=
  if s.link.driving then pulses 0 s.par.trn (release s) else s

/-! ### The response port (10_state.md R33) -/

/-- What the response port shows of a frame's acknowledgement and parity check. -/
def State.recordAck (a : Ack) (parityError : Bool) (s : State) : State :=
  { s with res := { s.res with ack := some a, parityError := parityError } }

/-- `res.attempts <- res.attempts + 1` (43_register_access.md R170). -/
def State.countAttempt (s : State) : State :=
  { s with res := { s.res with attempts := s.res.attempts + 1 } }

/-! ### Entry and return of every command (40_bitlink_primitives.md R109) -/

/-- `S.busy <- true`, and a response port with nothing decoded yet and no attempt made (R33: "overwritten whole by every command").
-/
def begin (s : State) : State :=
  { s with busy := true, res := { s.res with ack := none, parityError := false, attempts := 0 } }

/-- `S.busy <- false`, the sequencer idle, and the write of the response port (R109, R33, R31). `res.rdata` and `res.bit` are free
values where the spec does not call them valid (assumption 7). An error is returned by this same operation: "An error transfers
control nowhere" (60_exceptions.md R202). -/
def finish (r : CmdResult) (s : State) : State :=
  { s with
    busy := false
    seq  := Sequencer.idle
    res  :=
      { status      := r.status
        info        := r.info
        ack         := finalAck r s.res.ack
        parityError := finalParityError r s.res.parityError
        rdata       := r.rdata?.getD (Config.drawWord s.free)
        bit         := r.bit?.getD (Config.drawBit s.free)
        attempts    := s.res.attempts }
    free := s.free + 1 }

/-- The entry sequence of every command but `init` (R109, R200): the state check, then the command's own argument check, then its
body. -/
def runCommand (argOk : Bool) (body : State → CmdResult × State) (s : State) : State :=
  let s0 := begin s
  if s0.link.initialized then
    if argOk then
      let r := body s0
      finish r.1 r.2
    else finish (.err .invalidArgument none) s0
  else finish (.err .invalidState none) s0

/-! ### The operand registers (10_state.md R30): "written by the host when it issues the command" -/

/-- The operand of `driveLine`. -/
def State.latchBit (b : Bit) (s : State) : State := { s with op := { s.op with bit := b } }
/-- The operand of `setResetPin`. -/
def State.latchLevel (b : Bit) (s : State) : State := { s with op := { s.op with level := b } }
/-- The operand of `setConnected`. -/
def State.latchFlag (b : Bit) (s : State) : State := { s with op := { s.op with flag := b } }
/-- The operand of `dpRead` and `apRead`. -/
def State.latchAddr (a : Addr) (s : State) : State := { s with op := { s.op with addr := a } }
/-- The operands of `dpWrite` and `apWrite`. -/
def State.latchWrite (a : Addr) (d : Word32) (s : State) : State := { s with op := { s.op with addr := a, wdata := d } }
/-- The operands of `transfer`. -/
def State.latchTransfer (a : Addr) (isAP isRead : Bit) (d : Word32) (s : State) : State :=
  { s with op := { s.op with addr := a, isAP := isAP, isRead := isRead, wdata := d } }

/-! ### The command port (10_state.md R29, 30_encoding.md R71) -/

/-- The machine as it accepts the word at the head of the port: the word leaves the port, and a configuration the host drives with
it is on the configuration port. -/
def State.accept (w : PortWord) (rest : List PortWord) (s : State) : State :=
  { s with port := rest, op := { s.op with config := w.config.getD s.op.config } }

/-- The word of `nbits` table bits `w`, as a host presents it. -/
def portWordOf (nbits w : Nat) : PortWord := { bytes := tableBytes nbits w, config := none }

end Sys2Proof.Machine
end

