-- ==== Sys2Proof/Machine/BitLink.lean ====
section
/-! DEFINITION. The meanings of the bit-link primitives (40_bitlink_primitives.md): `init`, `clockPulse`, `driveLine`, `releaseLine`,
`readLine`, `setResetPin`, `setConnected`. -/

namespace Sys2Proof.Machine

/-- The body of a successful `init` (R100, Table RV). NRESET is absent when no reset pin is configured (assumption 19). -/
def initialise (s : State) : State :=
  let c := s.op.config
  { s with
    cfg      := c
    clk      := .driven true
    dioOut   := true
    dioOE    := true
    rst      := if c.pinRst.isSome then .driven true else .absent
    rstTrace := if c.pinRst.isSome then s.rstTrace ++ [true] else s.rstTrace
    link     := { initialized := true, connected := false, driving := true }
    sampled  := none }

/-- `init(config)` (R100): the one command legal before initialisation; a rejected configuration changes nothing but the response
port. -/
def execInit (s : State) : Host.Outcome State Fault Refusal :=
  .next
    (if configOk s.par s.op.config then finish .ok (initialise (begin s))
     else finish (.err .invalidArgument none) (begin s))

/-- `clockPulse()` (R103). -/
def execClockPulse (s : State) : Host.Outcome State Fault Refusal :=
  .next (runCommand true (fun s => (.ok, pulse s)) s)

/-- `driveLine(bit)` (R104). -/
def execDriveLine (bit : Bit) (s : State) : Host.Outcome State Fault Refusal :=
  .next (runCommand true (fun s => (.ok, drive s.op.bit s)) (s.latchBit bit))

/-- `releaseLine()` (R105). -/
def execReleaseLine (s : State) : Host.Outcome State Fault Refusal :=
  .next (runCommand true (fun s => (.ok, release s)) s)

/-- `readLine()` (R106). -/
def execReadLine (s : State) : Host.Outcome State Fault Refusal :=
  .next (runCommand true (fun s => let a := sample s; (.okBit a.1, a.2)) s)

/-- Drive NRESET (R107). -/
def driveReset (level : Bit) (s : State) : State :=
  { s with rst := .driven level, rstTrace := s.rstTrace ++ [level] }

/-- `setResetPin(level)` (R107): `InvalidArgument` when no reset pin is configured. -/
def execSetResetPin (level : Bit) (s : State) : Host.Outcome State Fault Refusal :=
  .next (runCommand s.cfg.pinRst.isSome (fun s => (.ok, driveReset s.op.level s)) (s.latchLevel level))

/-- `S.link.connected <- flag` (R108). -/
def setConnectedFlag (flag : Bit) (s : State) : State := { s with link := { s.link with connected := flag } }

/-- `setConnected(flag)` (R108). -/
def execSetConnected (flag : Bit) (s : State) : Host.Outcome State Fault Refusal :=
  .next (runCommand true (fun s => (.ok, setConnectedFlag s.op.flag s)) (s.latchFlag flag))

end Sys2Proof.Machine
end

