-- ==== Sys2Proof/Machine/Transaction.lean ====
section
/-! DEFINITION. The transaction layer (42_transaction.md): one frame on the wire in its phases, and the meaning of `transfer`. -/

namespace Sys2Proof.Machine

/-- The source's Transaction record, "`{register address, AP|DP, read|write, data}`" (10_state.md R30). -/
structure Request where
  addr   : Addr
  isAP   : Bit
  isRead : Bit
  data   : Word32
  deriving DecidableEq, Repr

/-- Phases `LEAD` and `HEADER` with a given header byte: take the line back if it is owed, then send the eight bits, the park bit
included, all driven (R140, R145). -/
def sendHeader (h : BitVec 8) (s : State) : State :=
  writeBits h ((ensureDriving (s.enter .lead)).enter .header)

/-- Phases `TRN1` and `ACK`: hand the line over, take the three samples, decode after the third, and show the acknowledgement on the
response port (R140, R146). -/
def receiveAck (s : State) : Ack × State :=
  let r := readBits 3 ((turnToTarget (s.enter .trn1)).enter .ack)
  let a := decodeAck r.2.par r.1
  (a, r.2.recordAck a false)

/-- The parity comparison, after the 33rd sample: a word that fails it is discarded, and the response port keeps the acknowledgement
`OK` with `res.parityError` true (R149). -/
def checkParity (w : Word32) (p : BitVec 1) (s : State) : FrameOutcome × State :=
  if p = BitVec.ofBool (parity32 w) then (.okData w, s)
  else (.parityError, s.recordAck .ok true)

/-- Phases `RDATA` and `RPARITY`: 33 samples with no turnaround before them, then the comparison (R147). The line stays released
(R144). -/
def readPhase (s : State) : FrameOutcome × State :=
  let d := readBits 32 (s.enter .rdata)
  let p := readBits 1 (d.2.enter .rparity)
  checkParity d.1 p.1 p.2

/-- `POST_IDLE` low cycles (R151). -/
def postIdle (s : State) : State := cycles false s.par.postIdle (s.enter .post)

/-- Phases `TRN2`, `WDATA`, `WPARITY`, `POST` (R148, R151). -/
def writePhase (data : Word32) (s : State) : State :=
  let s1 := writeBits data ((ensureDriving (s.enter .trn2)).enter .wdata)
  let s2 := writeBits (BitVec.ofBool (parity32 data)) (s1.enter .wparity)
  postIdle s2

/-- Phases `TRN2`, `DRAIN`, `DPARK`, `POST`: 32 dummy bits and a park bit, "so the wire protocol stays framed" (R150, R151). -/
def drainPhase (s : State) : State :=
  let s1 := writeBits s.par.dummyWord ((ensureDriving (s.enter .trn2)).enter .drain)
  let s2 := writeBits (BitVec.ofBool s.par.drainPark) (s1.enter .dpark)
  postIdle s2

/-- The branch of a frame, taken once, after the third acknowledgement sample (R154). -/
def framePhases (q : Request) (a : Ack) (s : State) : FrameOutcome × State :=
  match a with
  | .ok            => if q.isRead then readPhase s else (.ok, writePhase q.data s)
  | .wait          => (.wait, drainPhase s)
  | .fault         => (.fault, drainPhase s)
  | .protocolError => (.protocolError, drainPhase s)

/-- One `transfer`, from its first cycle to its last (R140), ending in phase `IDLE` (R154). One call is one frame (R155). -/
def frame (q : Request) (s : State) : FrameOutcome × State :=
  let r := receiveAck (sendHeader (header s.par q.isAP q.isRead q.addr) s)
  let f := framePhases q r.1 r.2
  (f.1, f.2.enter .idle)

/-- The request the operand registers hold (R30). -/
def State.request (s : State) : Request :=
  { addr := s.op.addr, isAP := s.op.isAP, isRead := s.op.isRead, data := s.op.wdata }

/-- The body of `transfer`: `Ok(outcome)` (R152). -/
def transferBody (s : State) : CmdResult × State :=
  let r := frame s.request s
  (.okOutcome r.1, r.2)

/-- `transfer(addr, isAP, isRead, data)` (R140); a misaligned address is `InvalidArgument` before any cycle (20_memory.md R55). -/
def execTransfer (addr : Addr) (isAP isRead : Bit) (data : Word32) (s : State) : Host.Outcome State Fault Refusal :=
  .next (runCommand (aligned addr) transferBody (s.latchTransfer addr isAP isRead data))

end Sys2Proof.Machine
end

