-- ==== Sys2Proof/Machine/RegisterAccess.lean ====
section
/-! DEFINITION. Register access with bounded retry and fault clearing (43_register_access.md): the abort write, the one retry loop, and
the meanings of `dpRead`, `dpWrite`, `apRead`, `apWrite`, `clearErrors`. -/

namespace Sys2Proof.Machine

/-- The abort write: one `transfer` of `ABORT_CLEAR` to the abort register, not a loop (R176). -/
def abortRequest (par : Params) : Request :=
  { addr := par.dpAbortAddr, isAP := false, isRead := false, data := par.abortClear }

/-- What `clearErrors` makes of the abort write's outcome (R176). A write answers neither data nor a parity error (Table TO); the two
cases are here only because the function is total. -/
def abortResult : FrameOutcome → CmdResult
  | .ok            => .ok
  | .okData _      => .ok
  | .wait          => .err .protocolTimeout (some .wait)
  | .fault         => .err .protocolFault (some .fault)
  | .protocolError => .err .protocolFault (some .protocolError)
  | .parityError   => .err .protocolFault (some .parityError)

/-- The body of `clearErrors()` (R176). -/
def clearErrorsBody (s : State) : CmdResult × State :=
  let r := frame (abortRequest s.par) s
  (abortResult r.1, r.2)

/-- One attempt of a retry loop (R170): counted in `res.attempts`, then the frame, then counted in `seq.attempt`. -/
def attempt (q : Request) (s : State) : FrameOutcome × State :=
  let r := frame q s.countAttempt
  (r.1, r.2.setAttempt (r.2.seq.attempt + 1))

/-- What one turn of the loop leads to: the command's result, or another attempt, if one is left, after the outcome `o`. -/
inductive Turn where
  | done (r : CmdResult)
  | again (o : FrameOutcome)
  deriving DecidableEq, Repr

/-- What the loop makes of an attempt (Table RM, R178, R179): `FAULT` is cleared first, and a failed abort write ends the loop. -/
def loopTurn (q : Request) (s : State) : Turn × State :=
  let a := attempt q s
  match a.1 with
  | .okData w      => (.done (.okWord w), a.2)
  | .ok            => (.done .ok, a.2)
  | .wait          => (.again .wait, a.2)
  | .fault         =>
    let c := clearErrorsBody a.2
    match c.1 with
    | .err e info => (.done (.err e info), c.2)
    | _           => (.again .fault, c.2)
  | .parityError   => (nonretry s.par .parityError, a.2)
  | .protocolError => (nonretry s.par .protocolError, a.2)
where
  /-- `PARITY_ERROR` and `PROTOCOL_ERROR` under `NONRETRY_POLICY` (R179). -/
  nonretry (par : Params) (o : FrameOutcome) : Turn :=
    match par.nonretryPolicy with
    | .failFast => .done (.err .protocolFault (some o))
    | .retry    => .again o

/-- The retry loop with `n` attempts left and `last` the outcome of the one before (R170, R177). -/
def retryLoop (q : Request) : Nat → Option FrameOutcome → State → CmdResult × State
  | 0,     last, s => (.err .protocolTimeout last, s)
  | n + 1, _,    s =>
    let t := loopTurn q s
    match t.1 with
    | .done r  => (r, t.2)
    | .again o => retryLoop q n (some o) t.2

/-- `retry(addr, isAP, isRead, data)` (R170): at most `RETRY_BOUND` attempts. -/
def retry (q : Request) (s : State) : CmdResult × State :=
  retryLoop q s.par.retryBound none (s.setAttempt 0)

/-- The second step of `apRead`: a read of the read-buffer register (R174). -/
def rdbuffRequest (par : Params) : Request :=
  { addr := par.dpRdbuffAddr, isAP := false, isRead := true, data := 0#32 }

/-- The body of `apRead` (R174): the first loop posts the read and its word is discarded; the second returns the value. -/
def apReadBody (s : State) : CmdResult × State :=
  let r := retry { addr := s.op.addr, isAP := true, isRead := true, data := 0#32 } s
  match r.1 with
  | .err e info => (.err e info, r.2)
  | _           => retry (rdbuffRequest r.2.par) r.2

/-- `dpRead(addr)` (R172). -/
def execDpRead (addr : Addr) (s : State) : Host.Outcome State Fault Refusal :=
  .next (runCommand (aligned addr)
    (fun s => retry { addr := s.op.addr, isAP := false, isRead := true, data := 0#32 } s) (s.latchAddr addr))

/-- `dpWrite(addr, data)` (R173). -/
def execDpWrite (addr : Addr) (data : Word32) (s : State) : Host.Outcome State Fault Refusal :=
  .next (runCommand (aligned addr)
    (fun s => retry { addr := s.op.addr, isAP := false, isRead := false, data := s.op.wdata } s) (s.latchWrite addr data))

/-- `apRead(addr)` (R174). -/
def execApRead (addr : Addr) (s : State) : Host.Outcome State Fault Refusal :=
  .next (runCommand (aligned addr) apReadBody (s.latchAddr addr))

/-- `apWrite(addr, data)` (R175). -/
def execApWrite (addr : Addr) (data : Word32) (s : State) : Host.Outcome State Fault Refusal :=
  .next (runCommand (aligned addr)
    (fun s => retry { addr := s.op.addr, isAP := true, isRead := false, data := s.op.wdata } s) (s.latchWrite addr data))

/-- `clearErrors()` (R176). -/
def execClearErrors (s : State) : Host.Outcome State Fault Refusal :=
  .next (runCommand true clearErrorsBody s)

end Sys2Proof.Machine
end

