-- ==== Sys2Proof/Machine/Reserved.lean ====
section
/-! DEFINITION. The meanings of the reserved command codes 17 to 31 (30_encoding.md R72). -/

namespace Sys2Proof.Machine

/-- "A command word with a reserved code returns `Err(InvalidArgument)`, changes no state and generates no cycle" (R72). The code is
tested first, before the state check (60_exceptions.md R200). -/
def reservedCode (s : State) : State := finish (.err .invalidArgument none) (begin s)

/-- Command code 17 (R72, Table EC). -/
def execReserved17 (s : State) : Host.Outcome State Fault Refusal := .next (reservedCode s)
/-- Command code 18 (R72, Table EC). -/
def execReserved18 (s : State) : Host.Outcome State Fault Refusal := .next (reservedCode s)
/-- Command code 19 (R72, Table EC). -/
def execReserved19 (s : State) : Host.Outcome State Fault Refusal := .next (reservedCode s)
/-- Command code 20 (R72, Table EC). -/
def execReserved20 (s : State) : Host.Outcome State Fault Refusal := .next (reservedCode s)
/-- Command code 21 (R72, Table EC). -/
def execReserved21 (s : State) : Host.Outcome State Fault Refusal := .next (reservedCode s)
/-- Command code 22 (R72, Table EC). -/
def execReserved22 (s : State) : Host.Outcome State Fault Refusal := .next (reservedCode s)
/-- Command code 23 (R72, Table EC). -/
def execReserved23 (s : State) : Host.Outcome State Fault Refusal := .next (reservedCode s)
/-- Command code 24 (R72, Table EC). -/
def execReserved24 (s : State) : Host.Outcome State Fault Refusal := .next (reservedCode s)
/-- Command code 25 (R72, Table EC). -/
def execReserved25 (s : State) : Host.Outcome State Fault Refusal := .next (reservedCode s)
/-- Command code 26 (R72, Table EC). -/
def execReserved26 (s : State) : Host.Outcome State Fault Refusal := .next (reservedCode s)
/-- Command code 27 (R72, Table EC). -/
def execReserved27 (s : State) : Host.Outcome State Fault Refusal := .next (reservedCode s)
/-- Command code 28 (R72, Table EC). -/
def execReserved28 (s : State) : Host.Outcome State Fault Refusal := .next (reservedCode s)
/-- Command code 29 (R72, Table EC). -/
def execReserved29 (s : State) : Host.Outcome State Fault Refusal := .next (reservedCode s)
/-- Command code 30 (R72, Table EC). -/
def execReserved30 (s : State) : Host.Outcome State Fault Refusal := .next (reservedCode s)
/-- Command code 31 (R72, Table EC). -/
def execReserved31 (s : State) : Host.Outcome State Fault Refusal := .next (reservedCode s)

end Sys2Proof.Machine
end

