-- ==== Sys2Proof/Machine/Sequences.lean ====
section
/-! DEFINITION. The meanings of the wire-reset and wake sequences (41_bitlink_sequences.md): `lineReset`, `switchSequence`,
`dormantWake`, `dormantEnter`. Each begins with `ensureDriving()`; none samples the line (R113). -/

namespace Sys2Proof.Machine

/-- `lineResetBody()` (R120). -/
def lineResetBody (s : State) : State :=
  cycles false s.par.lineResetIdle (cycles true s.par.lineResetHigh s)

/-- The body of `lineReset()` (R120). -/
def lineResetWires (s : State) : State := lineResetBody (ensureDriving s)

/-- The body of `switchSequence()` (R122). -/
def switchWires (s : State) : State := lineResetBody (writeBits s.par.jtagToSwd (ensureDriving s))

/-- The body of `dormantWake()` (R124). -/
def wakeWires (s : State) : State :=
  let s1 := cycles s.par.wakePreLevel s.par.wakePreCycles (ensureDriving s)
  let s2 := writeBits s.par.selectionAlert s1
  let s3 := cycles s.par.wakeGapLevel s.par.wakeGapCycles s2
  lineResetBody (writeBits s.par.activationCode s3)

/-- The body of `dormantEnter()` (R127). -/
def dormantWires (s : State) : State :=
  writeBits s.par.toDormant (cycles true s.par.discHigh (ensureDriving s))

/-- `lineReset()` (R120). -/
def execLineReset (s : State) : Host.Outcome State Fault Refusal :=
  .next (runCommand true (fun s => (.ok, lineResetWires s)) s)

/-- `switchSequence()` (R122). -/
def execSwitchSequence (s : State) : Host.Outcome State Fault Refusal :=
  .next (runCommand true (fun s => (.ok, switchWires s)) s)

/-- `dormantWake()` (R124). -/
def execDormantWake (s : State) : Host.Outcome State Fault Refusal :=
  .next (runCommand true (fun s => (.ok, wakeWires s)) s)

/-- `dormantEnter()` (R127). -/
def execDormantEnter (s : State) : Host.Outcome State Fault Refusal :=
  .next (runCommand true (fun s => (.ok, dormantWires s)) s)

end Sys2Proof.Machine
end

