-- ==== Sys2Proof/Machine/WireFormats.lean ====
section
/-! DEFINITION. The meanings of the wire-format rows of spec/opcode_table.json (00_scope.md R1 (b)), presented alone: what SWDLC does
with that word at its place in a transaction or sequence. A header is phases `LEAD` and `HEADER` of a frame; an acknowledgement is
phases `TRN1` and `ACK` with the target answering its three bits; a constant is driven bit 0 first after `ensureDriving()`. The entry
sequence of R109 applies. DESIGN CHOICE (assumptions 9, 10 and 11). -/

namespace Sys2Proof.Machine

/-- A request header on the wire (30_encoding.md R79, 42_transaction.md R145). -/
def emitHeader (h : BitVec 8) (s : State) : State :=
  runCommand true (fun s => (.ok, sendHeader h s)) s

/-- The target answers an acknowledgement: its three bits are the next three samples, bit 0 first (30_encoding.md R80). -/
def answerAck (a : BitVec 3) (s : State) : State :=
  runCommand true (fun s => (.ok, (receiveAck { s with answers := wireBits a ++ s.answers }).2)) s

/-- A wire constant (30_encoding.md R85 to R89). -/
def emitConstant {w : Nat} (v : BitVec w) (s : State) : State :=
  runCommand true (fun s => (.ok, writeBits v (ensureDriving s))) s

/-- DP write, address 0x0 (Table RQ). -/
def execReqDpW0 (s : State) : Host.Outcome State Fault Refusal := .next (emitHeader 0x81#8 s)
/-- DP write, address 0x4 (Table RQ). -/
def execReqDpW4 (s : State) : Host.Outcome State Fault Refusal := .next (emitHeader 0xA9#8 s)
/-- DP write, address 0x8 (Table RQ). -/
def execReqDpW8 (s : State) : Host.Outcome State Fault Refusal := .next (emitHeader 0xB1#8 s)
/-- DP write, address 0xC (Table RQ). -/
def execReqDpWC (s : State) : Host.Outcome State Fault Refusal := .next (emitHeader 0x99#8 s)
/-- DP read, address 0x0 (Table RQ). -/
def execReqDpR0 (s : State) : Host.Outcome State Fault Refusal := .next (emitHeader 0xA5#8 s)
/-- DP read, address 0x4 (Table RQ). -/
def execReqDpR4 (s : State) : Host.Outcome State Fault Refusal := .next (emitHeader 0x8D#8 s)
/-- DP read, address 0x8 (Table RQ). -/
def execReqDpR8 (s : State) : Host.Outcome State Fault Refusal := .next (emitHeader 0x95#8 s)
/-- DP read, address 0xC (Table RQ). -/
def execReqDpRC (s : State) : Host.Outcome State Fault Refusal := .next (emitHeader 0xBD#8 s)
/-- AP write, address 0x0 (Table RQ). -/
def execReqApW0 (s : State) : Host.Outcome State Fault Refusal := .next (emitHeader 0xA3#8 s)
/-- AP write, address 0x4 (Table RQ). -/
def execReqApW4 (s : State) : Host.Outcome State Fault Refusal := .next (emitHeader 0x8B#8 s)
/-- AP write, address 0x8 (Table RQ). -/
def execReqApW8 (s : State) : Host.Outcome State Fault Refusal := .next (emitHeader 0x93#8 s)
/-- AP write, address 0xC (Table RQ). -/
def execReqApWC (s : State) : Host.Outcome State Fault Refusal := .next (emitHeader 0xBB#8 s)
/-- AP read, address 0x0 (Table RQ). -/
def execReqApR0 (s : State) : Host.Outcome State Fault Refusal := .next (emitHeader 0x87#8 s)
/-- AP read, address 0x4 (Table RQ). -/
def execReqApR4 (s : State) : Host.Outcome State Fault Refusal := .next (emitHeader 0xAF#8 s)
/-- AP read, address 0x8 (Table RQ). -/
def execReqApR8 (s : State) : Host.Outcome State Fault Refusal := .next (emitHeader 0xB7#8 s)
/-- AP read, address 0xC (Table RQ). -/
def execReqApRC (s : State) : Host.Outcome State Fault Refusal := .next (emitHeader 0x9F#8 s)
/-- ACK value 0b000 (Table AK). -/
def execAckProtocolError000 (s : State) : Host.Outcome State Fault Refusal := .next (answerAck 0b000#3 s)
/-- ACK value 0b001 (Table AK). -/
def execAckOk (s : State) : Host.Outcome State Fault Refusal := .next (answerAck 0b001#3 s)
/-- ACK value 0b010 (Table AK). -/
def execAckWait (s : State) : Host.Outcome State Fault Refusal := .next (answerAck 0b010#3 s)
/-- ACK value 0b011 (Table AK). -/
def execAckProtocolError011 (s : State) : Host.Outcome State Fault Refusal := .next (answerAck 0b011#3 s)
/-- ACK value 0b100 (Table AK). -/
def execAckFault (s : State) : Host.Outcome State Fault Refusal := .next (answerAck 0b100#3 s)
/-- ACK value 0b101 (Table AK). -/
def execAckProtocolError101 (s : State) : Host.Outcome State Fault Refusal := .next (answerAck 0b101#3 s)
/-- ACK value 0b110 (Table AK). -/
def execAckProtocolError110 (s : State) : Host.Outcome State Fault Refusal := .next (answerAck 0b110#3 s)
/-- ACK value 0b111 (Table AK). -/
def execAckProtocolError111 (s : State) : Host.Outcome State Fault Refusal := .next (answerAck 0b111#3 s)
/-- `JTAG_TO_SWD` (R86). -/
def execJtagToSwd (s : State) : Host.Outcome State Fault Refusal := .next (emitConstant 0xE79E#16 s)
/-- `SELECTION_ALERT` (R87). -/
def execSelectionAlert (s : State) : Host.Outcome State Fault Refusal :=
  .next (emitConstant 0x19BC0EA2E3DDAFE986852D956209F392#128 s)
/-- `ACTIVATION_CODE` (R88). -/
def execActivationCode (s : State) : Host.Outcome State Fault Refusal := .next (emitConstant 0x1A#8 s)
/-- `TO_DORMANT` (R89). -/
def execToDormant (s : State) : Host.Outcome State Fault Refusal := .next (emitConstant 0xE3BC#16 s)

end Sys2Proof.Machine
end

