-- ==== Sys2Proof/Machine/Dispatch.lean ====
section
/-! DEFINITION. One arm per constructor of `Instr`, each one direct call of its meaning. -/

namespace Sys2Proof.Machine

def exec (i : Instr) (s : State) : Host.Outcome State Fault Refusal :=
  match i with
  | .init => Sys2Proof.Machine.execInit s
  | .clockPulse => Sys2Proof.Machine.execClockPulse s
  | .driveLine bit => Sys2Proof.Machine.execDriveLine bit s
  | .releaseLine => Sys2Proof.Machine.execReleaseLine s
  | .readLine => Sys2Proof.Machine.execReadLine s
  | .setResetPin level => Sys2Proof.Machine.execSetResetPin level s
  | .setConnected flag => Sys2Proof.Machine.execSetConnected flag s
  | .lineReset => Sys2Proof.Machine.execLineReset s
  | .switchSequence => Sys2Proof.Machine.execSwitchSequence s
  | .dormantWake => Sys2Proof.Machine.execDormantWake s
  | .dormantEnter => Sys2Proof.Machine.execDormantEnter s
  | .transfer addr isAP isRead data => Sys2Proof.Machine.execTransfer addr isAP isRead data s
  | .dpRead addr => Sys2Proof.Machine.execDpRead addr s
  | .dpWrite addr data => Sys2Proof.Machine.execDpWrite addr data s
  | .apRead addr => Sys2Proof.Machine.execApRead addr s
  | .apWrite addr data => Sys2Proof.Machine.execApWrite addr data s
  | .clearErrors => Sys2Proof.Machine.execClearErrors s
  | .reserved17 => Sys2Proof.Machine.execReserved17 s
  | .reserved18 => Sys2Proof.Machine.execReserved18 s
  | .reserved19 => Sys2Proof.Machine.execReserved19 s
  | .reserved20 => Sys2Proof.Machine.execReserved20 s
  | .reserved21 => Sys2Proof.Machine.execReserved21 s
  | .reserved22 => Sys2Proof.Machine.execReserved22 s
  | .reserved23 => Sys2Proof.Machine.execReserved23 s
  | .reserved24 => Sys2Proof.Machine.execReserved24 s
  | .reserved25 => Sys2Proof.Machine.execReserved25 s
  | .reserved26 => Sys2Proof.Machine.execReserved26 s
  | .reserved27 => Sys2Proof.Machine.execReserved27 s
  | .reserved28 => Sys2Proof.Machine.execReserved28 s
  | .reserved29 => Sys2Proof.Machine.execReserved29 s
  | .reserved30 => Sys2Proof.Machine.execReserved30 s
  | .reserved31 => Sys2Proof.Machine.execReserved31 s
  | .reqDpW0 => Sys2Proof.Machine.execReqDpW0 s
  | .reqDpW4 => Sys2Proof.Machine.execReqDpW4 s
  | .reqDpW8 => Sys2Proof.Machine.execReqDpW8 s
  | .reqDpWC => Sys2Proof.Machine.execReqDpWC s
  | .reqDpR0 => Sys2Proof.Machine.execReqDpR0 s
  | .reqDpR4 => Sys2Proof.Machine.execReqDpR4 s
  | .reqDpR8 => Sys2Proof.Machine.execReqDpR8 s
  | .reqDpRC => Sys2Proof.Machine.execReqDpRC s
  | .reqApW0 => Sys2Proof.Machine.execReqApW0 s
  | .reqApW4 => Sys2Proof.Machine.execReqApW4 s
  | .reqApW8 => Sys2Proof.Machine.execReqApW8 s
  | .reqApWC => Sys2Proof.Machine.execReqApWC s
  | .reqApR0 => Sys2Proof.Machine.execReqApR0 s
  | .reqApR4 => Sys2Proof.Machine.execReqApR4 s
  | .reqApR8 => Sys2Proof.Machine.execReqApR8 s
  | .reqApRC => Sys2Proof.Machine.execReqApRC s
  | .ackProtocolError000 => Sys2Proof.Machine.execAckProtocolError000 s
  | .ackOk => Sys2Proof.Machine.execAckOk s
  | .ackWait => Sys2Proof.Machine.execAckWait s
  | .ackProtocolError011 => Sys2Proof.Machine.execAckProtocolError011 s
  | .ackFault => Sys2Proof.Machine.execAckFault s
  | .ackProtocolError101 => Sys2Proof.Machine.execAckProtocolError101 s
  | .ackProtocolError110 => Sys2Proof.Machine.execAckProtocolError110 s
  | .ackProtocolError111 => Sys2Proof.Machine.execAckProtocolError111 s
  | .jtagToSwd => Sys2Proof.Machine.execJtagToSwd s
  | .selectionAlert => Sys2Proof.Machine.execSelectionAlert s
  | .activationCode => Sys2Proof.Machine.execActivationCode s
  | .toDormant => Sys2Proof.Machine.execToDormant s

end Sys2Proof.Machine
end

