-- ==== Sys2Proof/Machine/Step.lean ====
section
/-! DEFINITION. One step: SWDLC does nothing until commanded (70_reset_and_hazards.md R220); then it accepts the word at the head of the
port, decodes it and runs it to completion (20_memory.md R56, R60, 60_exceptions.md R199). -/

namespace Sys2Proof.Machine

/-- One step of SWDLC. It stops on an illegal parameter record (R120), gives a host that presents a word while a command is in flight no
move (10_state.md R32, U7), and refuses bytes that are no word of the table. -/
def step (s : State) : Host.Outcome State Fault Refusal :=
  if paramsLegal s.par then
    if s.busy then .refused .hostWhileBusy
    else
      match s.port with
      | []        => .next s
      | w :: rest =>
        match decode w.bytes with
        | .instr i    => exec i (s.accept w rest)
        | .rejected _ => .refused (.undecodable w.bytes)
  else .fault .illegalParameters

/-- `s` with the word presented next on the command port, in front of the words the host still holds, so that the very next step runs it.
The configuration port is left as it is. -/
def State.withFetchWord (s : State) (nbits w : Nat) : State := { s with port := portWordOf nbits w :: s.port }

end Sys2Proof.Machine
end

