-- ==== Sys2Proof/Safety.lean ====
section
/-! DEFINITION. The terms in which the statements are written: what holds between commands, the cycles a transaction puts on the wire
(30_encoding.md Table TF), and the state after a command that has put cycles on the wire and returned a result. None of it is used by
the machine. -/

namespace Sys2Proof.Machine

/-! ### States between commands -/

/-- SWDLC has been initialised and its flag tells the truth about the driver (10_state.md R25, R28). -/
structure Ready (s : State) : Prop where
  initialized : s.link.initialized = true
  flagIsDriver : s.link.driving = s.dioOE

/-- What holds of the state at every command boundary. -/
structure Inv (s : State) : Prop where
  /-- The parameter record is one a model accepts (R120). -/
  legal : paramsLegal s.par = true
  /-- No command is in flight (R32). -/
  notBusy : s.busy = false
  /-- The sequencer is idle (R31). -/
  seqIdle : s.seq = Sequencer.idle
  /-- R28: `S.link.driving = S.dioOE`. -/
  flagIsDriver : s.link.driving = s.dioOE
  /-- R21, R203: after `init` SWCLK rests high; before it, it is not driven. -/
  clock : s.clk = if s.link.initialized then .driven true else .notDriven
  /-- R21: NRESET exists only when the reset pin is configured. -/
  resetAbsent : s.link.initialized = true → s.cfg.pinRst = none → s.rst = .absent
  /-- R21: NRESET is always driven once `init` has succeeded with a reset pin. -/
  resetDriven : s.link.initialized = true → s.cfg.pinRst ≠ none → ∃ b, s.rst = .driven b
  /-- R40: the list of levels ends with the level on the pin. -/
  resetTrace : ∀ b, s.rst = .driven b → s.rstTrace.getLast? = some b
  /-- R101: the configuration in force is a good one. -/
  configGood : s.link.initialized = true → configOk s.par s.cfg = true
  /-- R41: before the first `init` SWDLC drives no pin, generates no cycle and records no level. -/
  untouched : s.link.initialized = false →
    s.link.connected = false ∧ s.dioOE = false ∧ s.rst = .notDriven ∧ s.sampled = none ∧ s.trace = [] ∧ s.rstTrace = []
  /-- R174: at most `2 * RETRY_BOUND` request transfers. -/
  attempts : s.res.attempts ≤ 2 * s.par.retryBound
  /-- Table RC: three classes are never raised by SWDLC. -/
  classes : s.res.status ∈ [Status.ok, .error .invalidArgument, .error .invalidState, .error .protocolTimeout,
    .error .protocolFault]

/-! ### Cycles on the wire -/

/-- Driven cycles, one per bit (R110). -/
def drivenCycles (bs : List Bit) : List Cycle := bs.map Cycle.driven

/-- Sampled cycles, one per bit (R111). -/
def sampledCycles (bs : List Bit) : List Cycle := bs.map Cycle.sampled

/-- `n` cycles with the line released: the first records the sample taken since the last pulse, if there is one (R103). -/
def turnaround (sampled : Option Bit) : Nat → List Cycle
  | 0     => []
  | n + 1 => (match sampled with | some b => Cycle.sampled b | none => .z) :: List.replicate n .z

/-- The turnaround owed when the line is released (42_transaction.md R141, R144); none when SWDLC drives. -/
def lead (s : State) : List Cycle := if s.link.driving then [] else turnaround s.sampled s.par.trn

/-- The eight driven cycles of a request header (R145). -/
def headerCycles (par : Params) (q : Request) : List Cycle :=
  drivenCycles (wireBits (header par q.isAP q.isRead q.addr))

/-- `TRN` released cycles (R84). -/
def trnCycles (par : Params) : List Cycle := List.replicate par.trn .z

/-- `POST_IDLE` low cycles (R151). -/
def postCycles (par : Params) : List Cycle := List.replicate par.postIdle .d0

/-- Header, turnaround, ACK: how every frame opens (Table TF). -/
def requestCycles (par : Params) (q : Request) (a : BitVec 3) : List Cycle :=
  headerCycles par q ++ trnCycles par ++ sampledCycles (wireBits a)

/-- Table TF, "read, ACK OK": data and parity sampled with no turnaround before them (R147). -/
def readFrame (par : Params) (q : Request) (a : BitVec 3) (w : Word32) (p : Bit) : List Cycle :=
  requestCycles par q a ++ sampledCycles (wireBits w) ++ [Cycle.sampled p]

/-- Table TF, "write, ACK OK": turnaround, data, parity, and `POST_IDLE` (R148, R151). -/
def writeFrame (par : Params) (q : Request) (a : BitVec 3) : List Cycle :=
  requestCycles par q a ++ trnCycles par ++ drivenCycles (wireBits q.data) ++ [Cycle.driven (parity32 q.data)] ++ postCycles par

/-- Table TF, "read or write, ACK not OK": turnaround, dummy word, park bit, and `POST_IDLE` (R150, R151). -/
def drainFrame (par : Params) (q : Request) (a : BitVec 3) : List Cycle :=
  requestCycles par q a ++ trnCycles par ++ drivenCycles (wireBits par.dummyWord) ++ [Cycle.driven par.drainPark] ++ postCycles par

/-- The level the line rests at after a frame that ends with `last` and `POST_IDLE` low cycles (R148). -/
def restLevel (par : Params) (last : Bit) : Bit := if par.postIdle = 0 then last else false

/-- The outcome of a frame that ends without data, by its acknowledgement (Table TO). -/
def outcomeOf : Ack → FrameOutcome
  | .ok            => .ok
  | .wait          => .wait
  | .fault         => .fault
  | .protocolError => .protocolError

/-- The outcome of a read answered `OK`: the word when the parity bit matches, `PARITY_ERROR` otherwise (R147, R149). -/
def readOutcome (w : Word32) (p : Bit) : FrameOutcome := if p = parity32 w then .okData w else .parityError

/-- The line reset of Table SQ. -/
def lineResetCycles (par : Params) : List Cycle :=
  List.replicate par.lineResetHigh .d1 ++ List.replicate par.lineResetIdle .d0

/-- The longest frame with the line driven on entry: 46 with the defaults (Table TF). -/
def frameCycles (par : Params) : Nat := 44 + 2 * par.trn + par.postIdle

/-! ### Retry loops (43_register_access.md R170) -/

/-- The request of the commands that are one retry loop (R172, R173, R175). -/
def loopRequest : Instr → Option Request
  | .dpRead addr       => some { addr := addr, isAP := false, isRead := true, data := 0#32 }
  | .dpWrite addr data => some { addr := addr, isAP := false, isRead := false, data := data }
  | .apWrite addr data => some { addr := addr, isAP := true, isRead := false, data := data }
  | .init | .clockPulse | .driveLine _ | .releaseLine | .readLine | .setResetPin _ | .setConnected _ | .lineReset
  | .switchSequence | .dormantWake | .dormantEnter | .transfer _ _ _ _ | .apRead _ | .clearErrors | .reserved17 | .reserved18
  | .reserved19 | .reserved20 | .reserved21 | .reserved22 | .reserved23 | .reserved24 | .reserved25 | .reserved26 | .reserved27
  | .reserved28 | .reserved29 | .reserved30 | .reserved31 | .reqDpW0 | .reqDpW4 | .reqDpW8 | .reqDpWC | .reqDpR0 | .reqDpR4
  | .reqDpR8 | .reqDpRC | .reqApW0 | .reqApW4 | .reqApW8 | .reqApWC | .reqApR0 | .reqApR4 | .reqApR8 | .reqApRC
  | .ackProtocolError000 | .ackOk | .ackWait | .ackProtocolError011 | .ackFault | .ackProtocolError101 | .ackProtocolError110
  | .ackProtocolError111 | .jtagToSwd | .selectionAlert | .activationCode | .toDormant => none

/-- The first request of `apRead` (R174). -/
def apReadRequest (addr : Addr) : Request := { addr := addr, isAP := true, isRead := true, data := 0#32 }

/-- An attempt that leads to another one (Table RM): answered `WAIT`, or answered `FAULT` with the abort write answered `OK`. -/
inductive Setback where
  | wait
  | cleared
  deriving DecidableEq, Repr

/-- The outcome a loop keeps of it. -/
def Setback.outcome : Setback → FrameOutcome
  | .wait    => .wait
  | .cleared => .fault

/-- What the target answers in it. -/
def Setback.answers (par : Params) : Setback → List Bit
  | .wait    => wireBits par.ackWait
  | .cleared => wireBits par.ackFault ++ wireBits par.ackOk

/-- Its cycles: a drained frame, and after `FAULT` the frame of the abort write (R176, R178). -/
def Setback.cycles (par : Params) (q : Request) : Setback → List Cycle
  | .wait    => drainFrame par q par.ackWait
  | .cleared => drainFrame par q par.ackFault ++ writeFrame par (abortRequest par) par.ackOk

/-- The level it leaves on the line. -/
def Setback.level (par : Params) : Setback → Bit
  | .wait    => restLevel par par.drainPark
  | .cleared => restLevel par (parity32 par.abortClear)

/-- What the target answers in a run of such attempts. -/
def setbackAnswers (par : Params) (h : List Setback) : List Bit := h.flatMap (Setback.answers par)

/-- The cycles of a run of such attempts. -/
def setbackCycles (par : Params) (q : Request) (h : List Setback) : List Cycle := h.flatMap (Setback.cycles par q)

/-- The three valid acknowledgement codes differ (Table AK). -/
def AcksDistinct (par : Params) : Prop :=
  par.ackOk ≠ par.ackWait ∧ par.ackOk ≠ par.ackFault ∧ par.ackWait ≠ par.ackFault

/-- Whether SWDLC drives the line after a frame with this outcome (Table TO). -/
def drivesAfter : FrameOutcome → Bool
  | .okData _    => false
  | .parityError => false
  | _            => true

/-- An attempt that does not end the loop, under either `NONRETRY_POLICY` (Table RM, R179): a setback, an acknowledgement that is no
code, or a read answered `OK` whose word comes with the wrong parity bit. -/
inductive Failure where
  | setback (b : Setback)
  | invalid (a : BitVec 3)
  | corrupt (w : Word32)
  deriving DecidableEq, Repr

/-- When the loop goes on after it: the acknowledgements of a setback are told apart; the other two need `NONRETRY_POLICY = retry`. -/
def Failure.retried (par : Params) (q : Request) : Failure → Prop
  | .setback _ => AcksDistinct par
  | .invalid a => par.nonretryPolicy = .retry ∧ decodeAck par a = .protocolError
  | .corrupt _ => par.nonretryPolicy = .retry ∧ q.isRead = true

/-- The outcome a loop keeps of it. -/
def Failure.outcome : Failure → FrameOutcome
  | .setback b => b.outcome
  | .invalid _ => .protocolError
  | .corrupt _ => .parityError

/-- What the target answers in it. -/
def Failure.answers (par : Params) : Failure → List Bit
  | .setback b => b.answers par
  | .invalid a => wireBits a
  | .corrupt w => wireBits par.ackOk ++ wireBits w ++ [!parity32 w]

/-- Its cycles. -/
def Failure.cycles (par : Params) (q : Request) : Failure → List Cycle
  | .setback b => b.cycles par q
  | .invalid a => drainFrame par q a
  | .corrupt w => readFrame par q par.ackOk w (!parity32 w)

/-- The level it leaves in the output latch. -/
def Failure.level (par : Params) : Failure → Bit
  | .setback b => b.level par
  | .invalid _ => restLevel par par.drainPark
  | .corrupt _ => par.parkBit

/-- The turnaround that the frame after it opens with: `TRN` cycles where it leaves the line released (R180). -/
def Failure.handBack (par : Params) (f : Failure) : List Cycle := if drivesAfter f.outcome then [] else trnCycles par

/-- What the target answers in a run of failed attempts. -/
def failureAnswers (par : Params) (fs : List Failure) : List Bit := fs.flatMap (Failure.answers par)

/-- The cycles of a run of failed attempts with another frame after it. -/
def failureCycles (par : Params) (q : Request) (fs : List Failure) : List Cycle :=
  fs.flatMap (fun f => f.cycles par q ++ f.handBack par)

/-- What the target answers in a first loop of `apRead` that succeeds, its word being `stale` (R174). -/
def postedAnswers (par : Params) (fs : List Failure) (stale : Word32) : List Bit :=
  failureAnswers par fs ++ wireBits par.ackOk ++ wireBits stale ++ [parity32 stale]

/-- The cycles of that loop, with the turnaround that the second loop opens with (42_transaction.md R144). -/
def postedCycles (par : Params) (addr : Addr) (fs : List Failure) (stale : Word32) : List Cycle :=
  failureCycles par (apReadRequest addr) fs ++ readFrame par (apReadRequest addr) par.ackOk stale (parity32 stale) ++ trnCycles par

/-- Such a loop: fewer than `RETRY_BOUND` failed attempts, each of which leads to another (R177). -/
def Posted (par : Params) (addr : Addr) (fs : List Failure) : Prop :=
  aligned addr = true ∧ fs.length < par.retryBound ∧ ∀ f ∈ fs, f.retried par (apReadRequest addr)

/-- The instructions that run a loop on the request `q` first (R172 to R175). -/
def LoopsOn (i : Instr) (q : Request) : Prop := loopRequest i = some q ∨ ∃ addr, i = .apRead addr ∧ q = apReadRequest addr

/-! ### Bounds (70_reset_and_hazards.md R241) -/

/-- The most cycles an instruction can generate from `s` (R129, R153, R180, R241), the turnaround owed included. -/
def maxCycles (s : State) : Instr → Nat
  | .clockPulse     => 1
  | .lineReset      => (lead s).length + s.par.lineResetHigh + s.par.lineResetIdle
  | .switchSequence => (lead s).length + 16 + s.par.lineResetHigh + s.par.lineResetIdle
  | .dormantWake    => (lead s).length + s.par.wakePreCycles + 128 + s.par.wakeGapCycles + 8 + s.par.lineResetHigh + s.par.lineResetIdle
  | .dormantEnter   => (lead s).length + s.par.discHigh + 16
  | .transfer _ _ _ _ => (lead s).length + frameCycles s.par
  | .dpRead _       => (lead s).length + 2 * s.par.retryBound * frameCycles s.par
  | .dpWrite _ _    => (lead s).length + 2 * s.par.retryBound * frameCycles s.par
  | .apRead _       => (lead s).length + 2 * (s.par.retryBound - 1) * frameCycles s.par + 44 + s.par.trn
                         + s.par.trn + 2 * s.par.retryBound * frameCycles s.par
  | .apWrite _ _    => (lead s).length + 2 * s.par.retryBound * frameCycles s.par
  | .clearErrors    => (lead s).length + frameCycles s.par
  | .reqDpW0 | .reqDpW4 | .reqDpW8 | .reqDpWC | .reqDpR0 | .reqDpR4 | .reqDpR8 | .reqDpRC
  | .reqApW0 | .reqApW4 | .reqApW8 | .reqApWC | .reqApR0 | .reqApR4 | .reqApR8 | .reqApRC => (lead s).length + 8
  | .ackProtocolError000 | .ackOk | .ackWait | .ackProtocolError011 | .ackFault | .ackProtocolError101
  | .ackProtocolError110 | .ackProtocolError111 => s.par.trn + 3
  | .jtagToSwd      => (lead s).length + 16
  | .selectionAlert => (lead s).length + 128
  | .activationCode => (lead s).length + 8
  | .toDormant      => (lead s).length + 16
  | .init | .driveLine _ | .releaseLine | .readLine | .setResetPin _ | .setConnected _ | .reserved17 | .reserved18
  | .reserved19 | .reserved20 | .reserved21 | .reserved22 | .reserved23 | .reserved24 | .reserved25 | .reserved26 | .reserved27
  | .reserved28 | .reserved29 | .reserved30 | .reserved31 => 0

/-! ### States after a command -/

/-- `s` after the cycles `cs`, at least one of them, with the latch at `out` and the line driven or released: SWCLK rests high and no
sample is outstanding (R103). -/
def State.wires (s : State) (cs : List Cycle) (out : Bit) (driving : Bool) : State :=
  { s with
    clk     := .driven true
    dioOut  := out
    dioOE   := driving
    link    := { s.link with driving := driving }
    sampled := none
    trace   := s.trace ++ cs }

/-- `s` after a command has returned `r` (R109, R33): not busy, sequencer idle, the response port written whole. What the spec does not
call valid on the port is a free value. -/
def State.reply (s : State) (r : CmdResult) (ack : Option Ack) (parityError : Bool) (attempts : Nat) : State :=
  { s with
    busy := false
    seq  := { phase := .idle, bit := 0, attempt := 0 }
    res  :=
      { status      := r.status
        info        := r.info
        ack         := ack
        parityError := parityError
        rdata       := r.rdata?.getD (Config.drawWord s.free)
        bit         := r.bit?.getD (Config.drawBit s.free)
        attempts    := attempts }
    free := s.free + 1 }

/-- `s` with the answers still to come. -/
def State.leaving (s : State) (rest : List Bit) : State := { s with answers := rest }

/-- `s` once the host has issued `i`: the operand registers `i` has are written (10_state.md R30). -/
def State.issued (i : Instr) (s : State) : State :=
  match i with
  | .driveLine b        => s.latchBit b
  | .setResetPin b      => s.latchLevel b
  | .setConnected b     => s.latchFlag b
  | .transfer a p r d   => s.latchTransfer a p r d
  | .dpRead a           => s.latchAddr a
  | .dpWrite a d        => s.latchWrite a d
  | .apRead a           => s.latchAddr a
  | .apWrite a d        => s.latchWrite a d
  | .init | .clockPulse | .releaseLine | .readLine | .lineReset | .switchSequence | .dormantWake | .dormantEnter | .clearErrors
  | .reserved17 | .reserved18 | .reserved19 | .reserved20 | .reserved21 | .reserved22 | .reserved23 | .reserved24 | .reserved25
  | .reserved26 | .reserved27 | .reserved28 | .reserved29 | .reserved30 | .reserved31 | .reqDpW0 | .reqDpW4 | .reqDpW8
  | .reqDpWC | .reqDpR0 | .reqDpR4 | .reqDpR8 | .reqDpRC | .reqApW0 | .reqApW4 | .reqApW8 | .reqApWC | .reqApR0 | .reqApR4
  | .reqApR8 | .reqApRC | .ackProtocolError000 | .ackOk | .ackWait | .ackProtocolError011 | .ackFault | .ackProtocolError101
  | .ackProtocolError110 | .ackProtocolError111 | .jtagToSwd | .selectionAlert | .activationCode | .toDormant => s

/-- One of the seventeen commands of Table CS. -/
def isCommand : Instr → Bool
  | .init | .clockPulse | .driveLine _ | .releaseLine | .readLine | .setResetPin _ | .setConnected _ | .lineReset | .switchSequence
  | .dormantWake | .dormantEnter | .transfer _ _ _ _ | .dpRead _ | .dpWrite _ _ | .apRead _ | .apWrite _ _ | .clearErrors => true
  | .reserved17 | .reserved18 | .reserved19 | .reserved20 | .reserved21 | .reserved22 | .reserved23 | .reserved24 | .reserved25
  | .reserved26 | .reserved27 | .reserved28 | .reserved29 | .reserved30 | .reserved31 | .reqDpW0 | .reqDpW4 | .reqDpW8
  | .reqDpWC | .reqDpR0 | .reqDpR4 | .reqDpR8 | .reqDpRC | .reqApW0 | .reqApW4 | .reqApW8 | .reqApWC | .reqApR0 | .reqApR4
  | .reqApR8 | .reqApRC | .ackProtocolError000 | .ackOk | .ackWait | .ackProtocolError011 | .ackFault | .ackProtocolError101
  | .ackProtocolError110 | .ackProtocolError111 | .jtagToSwd | .selectionAlert | .activationCode | .toDormant => false

/-- What no wire activity touches: Table P, LinkConfig, `initialized`, `connected`, NRESET and its list, the operand registers and the
host's words (42_transaction.md R153, 41_bitlink_sequences.md R129). -/
structure SameControl (s t : State) : Prop where
  par : t.par = s.par
  cfg : t.cfg = s.cfg
  initialized : t.link.initialized = s.link.initialized
  connected : t.link.connected = s.link.connected
  rst : t.rst = s.rst
  rstTrace : t.rstTrace = s.rstTrace
  op : t.op = s.op
  port : t.port = s.port

/-- `n` cycles at most were generated, and every earlier record stands (10_state.md R40: "append-only"). -/
def Appends (s t : State) (n : Nat) : Prop := ∃ cs : List Cycle, t.trace = s.trace ++ cs ∧ cs.length ≤ n

/-- `s` with another half-period delay in force and on the configuration port. -/
def State.withDelay (s : State) (d e : Nat) : State :=
  { s with cfg := { s.cfg with halfDelay := d }, op := { s.op with config := { s.op.config with halfDelay := e } } }

end Sys2Proof.Machine
end

