-- ==== Sys2Proof/Certificates/Slice0/Obligations.lean ====
section
/-! DEFINITION. The statements about the model, one `def Obligations.<Name> : Prop` each. A statement whose title says "model" rests in part
on a log entry it names. `Ready s` is the only condition most of them put on the state: SWDLC is initialised and its `driving` flag agrees
with the driver (10_state.md R25, R28). Where the target's answers matter they stand at the head of `s.answers`, and they may be any
bits (00_scope.md R6). -/

open Sys2Proof Sys2Proof.Machine

/-! ### Reset, the step, and what every step keeps -/

/-- 10_state.md Table RV, column "before first `init`": every field it gives a value. -/
def Obligations.ResetState : Prop :=
  State.reset.link = { initialized := false, connected := false, driving := false } ∧ State.reset.clk = .notDriven ∧
  State.reset.dioOE = false ∧ State.reset.rst = .notDriven ∧ State.reset.busy = false ∧ State.reset.sampled = none ∧
  State.reset.trace = [] ∧ State.reset.rstTrace = [] ∧
  State.reset.seq = { phase := .idle, bit := 0, attempt := 0 }

/-- The invariant holds at reset. -/
def Obligations.ResetInvariant : Prop := Inv State.reset

/-- Every step keeps the invariant: the `driving` flag is the driver (R28), SWCLK rests high (R203), NRESET is driven exactly when it is
configured (R21), the configuration in force is a good one (R101), at most `2 * RETRY_BOUND` attempts are reported (R174), and only four
error classes appear (Table RC). -/
def Obligations.StepKeepsInvariant : Prop :=
  ∀ s t : State, Inv s → step s = .next t → Inv t

/-- The word at the head of the port, when it decodes, is what the step runs: the word leaves the port and the configuration the host drives
with it is on the configuration port (30_encoding.md R71). -/
def Obligations.StepRunsDecoded : Prop :=
  ∀ (s : State) (w : PortWord) (rest : List PortWord) (i : Instr), paramsLegal s.par = true → s.busy = false → s.port = w :: rest →
    decode w.bytes = .instr i →
    step s = exec i { s with port := rest, op := { s.op with config := w.config.getD s.op.config } }

/-- A word placed by `withFetchWord` is the next one to run, and the words the host still holds follow it. -/
def Obligations.FetchedWordRuns : Prop :=
  ∀ (s : State) (nbits w : Nat) (i : Instr), paramsLegal s.par = true → s.busy = false → decodeTableWord nbits w = some i →
    step (s.withFetchWord nbits w) = exec i s

/-- What else a step can do: nothing until commanded (70_reset_and_hazards.md R220), no move for a host while a command is in flight
(10_state.md R32), and the model's two stops: a parameter record it rejects (41_bitlink_sequences.md R120; assumption 20) and bytes that are
no word of the table (assumption 13). -/
def Obligations.StepWithoutCommand : Prop :=
  ∀ s : State,
    (paramsLegal s.par = true → s.busy = false → s.port = [] → step s = .next s) ∧
    (paramsLegal s.par = true → s.busy = true → step s = .refused .hostWhileBusy) ∧
    (paramsLegal s.par = true → s.busy = false → ∀ w rest e, s.port = w :: rest → decode w.bytes = .rejected e →
      step s = .refused (.undecodable w.bytes)) ∧
    (s.par.lineResetHigh < 50 → step s = .fault .illegalParameters)

/-! ### Encodings -/

/-- Words written out from 30_encoding.md Tables CS, CW, RQ and AK and rules R86 to R89. -/
def Obligations.KnownWords : Prop :=
  decodeTableWord 48 0x000000000000 = some .init ∧
  decodeTableWord 48 0x110000000000 = some (.driveLine true) ∧
  decodeTableWord 48 0x480000000000 = some .dormantWake ∧
  decodeTableWord 48 0x5E0CDEADBEEF = some (.transfer 0x0C#8 true true 0xDEADBEEF#32) ∧
  decodeTableWord 48 0x600000000000 = some (.dpRead 0x00#8) ∧
  decodeTableWord 48 0x680801000000 = some (.dpWrite 0x08#8 0x01000000#32) ∧
  decodeTableWord 48 0x800000000000 = some .clearErrors ∧
  decodeTableWord 48 0x880000000000 = some .reserved17 ∧
  decodeTableWord 8 0xA5 = some .reqDpR0 ∧
  decodeTableWord 3 0b100 = some .ackFault ∧
  decodeTableWord 16 0xE79E = some .jtagToSwd ∧
  decodeTableWord 128 0x19BC0EA2E3DDAFE986852D956209F392 = some .selectionAlert

/-- Decoding what the encoder writes gives the instruction back, every operand at every value it can have. -/
def Obligations.DecodeEncode : Prop :=
  ∀ i : Instr, decode (encode i) = .instr i

/-- 30_encoding.md R71: the code selects the command, and a command reads only the operand fields its row names, whatever the others hold.
-/
def Obligations.CommandWordFields : Prop :=
  ∀ (isAP isRead b : Bit) (addr : Addr) (data : Word32),
    let word := fun code => decode (commandBytes code isAP isRead b addr data)
    word 0#5 = .instr .init ∧ word 1#5 = .instr .clockPulse ∧ word 2#5 = .instr (.driveLine b) ∧ word 3#5 = .instr .releaseLine ∧
    word 4#5 = .instr .readLine ∧ word 5#5 = .instr (.setResetPin b) ∧ word 6#5 = .instr (.setConnected b) ∧
    word 7#5 = .instr .lineReset ∧ word 8#5 = .instr .switchSequence ∧ word 9#5 = .instr .dormantWake ∧
    word 10#5 = .instr .dormantEnter ∧ word 11#5 = .instr (.transfer addr isAP isRead data) ∧ word 12#5 = .instr (.dpRead addr) ∧
    word 13#5 = .instr (.dpWrite addr data) ∧ word 14#5 = .instr (.apRead addr) ∧ word 15#5 = .instr (.apWrite addr data) ∧
    word 16#5 = .instr .clearErrors

/-- 30_encoding.md R72: a command word with one of the codes 17 to 31, whatever its other bits hold, is no valid encoding and returns
`Err(InvalidArgument)`; no cycle is generated and nothing but the response port changes, whether or not SWDLC is initialised
(60_exceptions.md R200). -/
def Obligations.ReservedCodes : Prop :=
  ∀ (w : BitVec 48) (s : State), 17 ≤ (cwCode w).toNat →
    ∃ i, decode (bytesLE 6 w.toNat) = .instr i ∧ i.wellFormed = false ∧
      exec i s = .next (s.reply (.err .invalidArgument none) none false 0)

/-- The same for each of the fifteen constructors. -/
def Obligations.ReservedConstructors : Prop :=
  ∀ (s : State) (i : Instr), i ∈ [Instr.reserved17, .reserved18, .reserved19, .reserved20, .reserved21, .reserved22, .reserved23,
      .reserved24, .reserved25, .reserved26, .reserved27, .reserved28, .reserved29, .reserved30, .reserved31] →
    exec i s = .next (s.reply (.err .invalidArgument none) none false 0)

/-- 30_encoding.md R74: the eight bits of a request header in the order they are sent. -/
def Obligations.HeaderBits : Prop :=
  ∀ (par : Params) (isAP isRead : Bit) (addr : Addr),
    wireBits (header par isAP isRead addr) =
      [par.startBit, isAP, isRead, addr.getLsbD 2, addr.getLsbD 3,
        isAP ^^ isRead ^^ addr.getLsbD 2 ^^ addr.getLsbD 3, par.stopBit, par.parkBit]

/-- 30_encoding.md Table RQ: the sixteen headers of the default parameters. -/
def Obligations.HeaderTable : Prop :=
  (header tableP false false 0x0#8 = 0x81#8 ∧ header tableP false false 0x4#8 = 0xA9#8 ∧ header tableP false false 0x8#8 = 0xB1#8 ∧
    header tableP false false 0xC#8 = 0x99#8) ∧
  (header tableP false true 0x0#8 = 0xA5#8 ∧ header tableP false true 0x4#8 = 0x8D#8 ∧ header tableP false true 0x8#8 = 0x95#8 ∧
    header tableP false true 0xC#8 = 0xBD#8) ∧
  (header tableP true false 0x0#8 = 0xA3#8 ∧ header tableP true false 0x4#8 = 0x8B#8 ∧ header tableP true false 0x8#8 = 0x93#8 ∧
    header tableP true false 0xC#8 = 0xBB#8) ∧
  (header tableP true true 0x0#8 = 0x87#8 ∧ header tableP true true 0x4#8 = 0xAF#8 ∧ header tableP true true 0x8#8 = 0xB7#8 ∧
    header tableP true true 0xC#8 = 0x9F#8)

/-- 30_encoding.md R80: three samples, the first of them bit 0, decode by Table AK; the five values that are no code are `PROTOCOL_ERROR`.
-/
def Obligations.AckDecoding : Prop :=
  (∀ s0 s1 s2 : Bit, assemble 3 [s0, s1, s2] = BitVec.ofBool s2 ++ (BitVec.ofBool s1 ++ BitVec.ofBool s0)) ∧
  (∀ par a, AcksDistinct par →
    (decodeAck par a = .ok ↔ a = par.ackOk) ∧ (decodeAck par a = .wait ↔ a = par.ackWait) ∧
    (decodeAck par a = .fault ↔ a = par.ackFault) ∧
    (decodeAck par a = .protocolError ↔ a ≠ par.ackOk ∧ a ≠ par.ackWait ∧ a ≠ par.ackFault)) ∧
  [0b000#3, 0b001#3, 0b010#3, 0b011#3, 0b100#3, 0b101#3, 0b110#3, 0b111#3].map (decodeAck tableP) =
    [.protocolError, .ok, .wait, .protocolError, .fault, .protocolError, .protocolError, .protocolError]

/-- 42_transaction.md R158: the laws of `parity32`. In (e), `m` are the data bits flipped on the wire and `e` whether the parity bit is: the
check fails exactly when the number of flipped bits is odd. -/
def Obligations.ParityLaws : Prop :=
  (parity32 0x00000000#32 = false ∧ parity32 0xFFFFFFFF#32 = false) ∧
  (∀ (v : Word32) (i : Nat), i < 32 → parity32 (v ^^^ (1#32 <<< i)) = !parity32 v) ∧
  parity32 0x2BA01477#32 = false ∧
  (parity32 0x00000001#32 = true ∧ parity32 0x80000000#32 = true ∧ parity32 0x0000001F#32 = true) ∧
  (∀ (w m : Word32) (e : Bit),
    readOutcome (w ^^^ m) (parity32 w ^^ e) = .parityError ↔ ((List.range 32).countP (fun i => m.getLsbD i) + e.toNat) % 2 = 1) ∧
  (∀ v : Word32, (parity32 v).toNat = (List.range 32).countP (fun i => v.getLsbD i) % 2)

/-! ### Bit-link primitives -/

/-- 40_bitlink_primitives.md R101: when a LinkConfig is accepted. -/
def Obligations.ConfigAccepted : Prop :=
  ∀ (par : Params) (c : LinkConfig), configOk par c = true ↔
    c.pinClk ∈ par.pinsOk ∧ c.pinDio ∈ par.pinsOk ∧ c.pinClk ≠ c.pinDio ∧
      ∀ p, c.pinRst = some p → p ∈ par.pinsOk ∧ p ≠ c.pinClk ∧ p ≠ c.pinDio

/-- 40_bitlink_primitives.md R100: a good configuration replaces the LinkConfig and the LinkState whole, drives SWCLK and SWDIO high, and
NRESET high when it is configured; no cycle is generated. A bad one changes nothing but the response port. It needs no earlier `init`. The
absence of NRESET without a reset pin is Table RV's (assumption 19). -/
def Obligations.Init : Prop :=
  ∀ s : State,
    (configOk s.par s.op.config = true →
      exec .init s = .next (({ s with
        cfg      := s.op.config
        clk      := .driven true
        dioOut   := true
        dioOE    := true
        rst      := if s.op.config.pinRst = none then .absent else .driven true
        rstTrace := if s.op.config.pinRst = none then s.rstTrace else s.rstTrace ++ [true]
        link     := { initialized := true, connected := false, driving := true }
        sampled  := none } : State).reply .ok none false 0)) ∧
    (configOk s.par s.op.config = false → exec .init s = .next (s.reply (.err .invalidArgument none) none false 0))

/-- 40_bitlink_primitives.md R103: one cycle, recorded by what the line is doing; the line and its flag are left alone. -/
def Obligations.ClockPulse : Prop :=
  ∀ s : State,
    (s.link.initialized = true →
      exec .clockPulse s = .next (({ s with
        clk     := .driven true
        sampled := none
        trace   := s.trace ++ [match s.dioOE, s.dioOut, s.sampled with
          | true,  true,  _          => .d1
          | true,  false, _          => .d0
          | false, _,     some true  => .s1
          | false, _,     some false => .s0
          | false, _,     none       => .z] } : State).reply .ok none false 0)) ∧
    (s.link.initialized = false → exec .clockPulse s = .next (s.reply (.err .invalidState none) none false 0))

/-- 40_bitlink_primitives.md R104: level, driver and flag together; no cycle. -/
def Obligations.DriveLine : Prop :=
  ∀ (s : State) (b : Bit),
    (s.link.initialized = true →
      exec (.driveLine b) s = .next (({ s.latchBit b with
        dioOut := b, dioOE := true, link := { s.link with driving := true } } : State).reply .ok none false 0)) ∧
    (s.link.initialized = false →
      exec (.driveLine b) s = .next ((s.latchBit b).reply (.err .invalidState none) none false 0))

/-- 40_bitlink_primitives.md R105: the driver off and the flag with it; the latch keeps its level; no cycle. -/
def Obligations.ReleaseLine : Prop :=
  ∀ s : State,
    (s.link.initialized = true →
      exec .releaseLine s = .next (({ s with dioOE := false, link := { s.link with driving := false } } : State).reply
        .ok none false 0)) ∧
    (s.link.initialized = false → exec .releaseLine s = .next (s.reply (.err .invalidState none) none false 0))

/-- 40_bitlink_primitives.md R106. With the line released the answer is the target's and is remembered for the next cycle: the next scripted
bit, or any bit where the script has ended. With the line driven the bit is any bit and nothing is remembered (93_implementation_defined.md
U1). No cycle, and no change of direction. -/
def Obligations.ReadLine : Prop :=
  ∀ s : State,
    (s.link.initialized = true → s.dioOE = false → ∀ b rest, s.answers = b :: rest →
      exec .readLine s = .next (({ s with sampled := some b, answers := rest } : State).reply (.okBit b) none false 0)) ∧
    (s.link.initialized = true → s.dioOE = false → s.answers = [] → ∃ b,
      exec .readLine s = .next (({ s with sampled := some b, free := s.free + 1 } : State).reply (.okBit b) none false 0)) ∧
    (s.link.initialized = true → s.dioOE = true → ∃ b,
      exec .readLine s = .next (({ s with free := s.free + 1 } : State).reply (.okBit b) none false 0)) ∧
    (s.link.initialized = false → exec .readLine s = .next (s.reply (.err .invalidState none) none false 0))

/-- 40_bitlink_primitives.md R107: NRESET goes to the level and the level is recorded; without a reset pin, `InvalidArgument`. -/
def Obligations.SetResetPin : Prop :=
  ∀ (s : State) (b : Bit),
    (s.link.initialized = true → s.cfg.pinRst ≠ none →
      exec (.setResetPin b) s = .next (({ s.latchLevel b with rst := .driven b, rstTrace := s.rstTrace ++ [b] } : State).reply
        .ok none false 0)) ∧
    (s.link.initialized = true → s.cfg.pinRst = none →
      exec (.setResetPin b) s = .next ((s.latchLevel b).reply (.err .invalidArgument none) none false 0)) ∧
    (s.link.initialized = false →
      exec (.setResetPin b) s = .next ((s.latchLevel b).reply (.err .invalidState none) none false 0))

/-- 40_bitlink_primitives.md R108: the flag is written and no pin is touched; before `init`, `InvalidState`. -/
def Obligations.SetConnected : Prop :=
  ∀ (s : State) (b : Bit),
    (s.link.initialized = true →
      exec (.setConnected b) s = .next (({ s.latchFlag b with link := { s.link with connected := b } } : State).reply
        .ok none false 0)) ∧
    (s.link.initialized = false →
      exec (.setConnected b) s = .next ((s.latchFlag b).reply (.err .invalidState none) none false 0))

/-! ### Wire-reset and wake sequences -/

/-- 41_bitlink_sequences.md R120: the turnaround if one is owed, `LINE_RESET_HIGH` cycles high, `LINE_RESET_IDLE` low; the line ends driven,
low unless `LINE_RESET_IDLE` is 0. A record with `LINE_RESET_HIGH` below 50 is rejected; that the rejection is the fault
`illegalParameters` of every step is the model's, assumption 20. -/
def Obligations.LineReset : Prop :=
  ∀ s : State,
    (Ready s → 50 ≤ s.par.lineResetHigh →
      exec .lineReset s = .next ((s.wires
        (lead s ++ List.replicate s.par.lineResetHigh .d1 ++ List.replicate s.par.lineResetIdle .d0)
        (decide (s.par.lineResetIdle = 0)) true).reply .ok none false 0)) ∧
    (s.link.initialized = false → exec .lineReset s = .next (s.reply (.err .invalidState none) none false 0)) ∧
    (s.par.lineResetHigh < 50 → step s = .fault .illegalParameters)

/-- 41_bitlink_sequences.md R122: the 16 bits of `JTAG_TO_SWD`, bit 0 first, and one line reset. -/
def Obligations.SwitchSequence : Prop :=
  ∀ s : State,
    (Ready s → 50 ≤ s.par.lineResetHigh →
      exec .switchSequence s = .next ((s.wires
        (lead s ++ drivenCycles (wireBits s.par.jtagToSwd) ++ lineResetCycles s.par)
        (decide (s.par.lineResetIdle = 0)) true).reply .ok none false 0)) ∧
    (s.link.initialized = false → exec .switchSequence s = .next (s.reply (.err .invalidState none) none false 0))

/-- 41_bitlink_sequences.md R124: `WAKE_PRE_CYCLES`, the 128 bits of the alert, `WAKE_GAP_CYCLES`, the 8 bits of the activation code, and one
line reset. -/
def Obligations.DormantWake : Prop :=
  ∀ s : State,
    (Ready s → 50 ≤ s.par.lineResetHigh →
      exec .dormantWake s = .next ((s.wires
        (lead s ++ List.replicate s.par.wakePreCycles (.driven s.par.wakePreLevel) ++ drivenCycles (wireBits s.par.selectionAlert)
          ++ List.replicate s.par.wakeGapCycles (.driven s.par.wakeGapLevel) ++ drivenCycles (wireBits s.par.activationCode)
          ++ lineResetCycles s.par)
        (decide (s.par.lineResetIdle = 0)) true).reply .ok none false 0)) ∧
    (s.link.initialized = false → exec .dormantWake s = .next (s.reply (.err .invalidState none) none false 0))

/-- 41_bitlink_sequences.md R127: `DISC_HIGH` cycles high and the 16 bits of `TO_DORMANT`; `connected` is not cleared. -/
def Obligations.DormantEnter : Prop :=
  ∀ s : State,
    (Ready s →
      exec .dormantEnter s = .next ((s.wires
        (lead s ++ List.replicate s.par.discHigh .d1 ++ drivenCycles (wireBits s.par.toDormant))
        (s.par.toDormant.getLsbD 15) true).reply .ok none false 0)) ∧
    (s.link.initialized = false → exec .dormantEnter s = .next (s.reply (.err .invalidState none) none false 0))

/-- 41_bitlink_sequences.md R129: what all four sequences leave, and how many cycles they append. -/
def Obligations.SequencesCommon : Prop :=
  ∀ (s : State) (i : Instr) (n : Nat), Ready s → 50 ≤ s.par.lineResetHigh →
    (i, n) ∈ [(Instr.lineReset, s.par.lineResetHigh + s.par.lineResetIdle),
      (.switchSequence, 16 + (s.par.lineResetHigh + s.par.lineResetIdle)),
      (.dormantWake, s.par.wakePreCycles + 128 + s.par.wakeGapCycles + 8 + (s.par.lineResetHigh + s.par.lineResetIdle)),
      (.dormantEnter, s.par.discHigh + 16)] →
    ∃ t, exec i s = .next t ∧ SameControl s t ∧ t.link.driving = true ∧ t.clk = .driven true ∧
      t.res.status = .ok ∧ t.res.ack = none ∧ t.res.attempts = 0 ∧
      t.trace.length = s.trace.length + (if s.link.driving then 0 else s.par.trn) + n ∧ s.trace <+: t.trace

/-! ### The transaction layer -/

/-- 42_transaction.md R141, R142 (Table TA): a turnaround happens exactly when the direction changes, is `TRN` cycles long, and comes
before the driver is enabled and after it is disabled; the state after it in full. Its cycles are calls of `pulse()`
(40_bitlink_primitives.md R103), so the first of them records a sample that is outstanding, where R141 and R142 write every one as `Z`:
the model's reading, assumption 28. They are counted in `seq.bit` (R154; assumption 22). -/
def Obligations.Turnaround : Prop :=
  ∀ s : State, s.link.driving = s.dioOE →
    let turned := fun driving : Bool => ({ s with
      clk     := if s.par.trn = 0 then s.clk else .driven true
      dioOE   := driving
      link    := { s.link with driving := driving }
      sampled := if s.par.trn = 0 then s.sampled else none
      trace   := s.trace ++ turnaround s.sampled s.par.trn
      seq     := { s.seq with bit := if s.par.trn = 0 then s.seq.bit else s.par.trn - 1 } } : State)
    (s.link.driving = true → ensureDriving s = s) ∧
    (s.link.driving = false → ensureDriving s = turned true) ∧
    (s.link.driving = false → turnToTarget s = s) ∧
    (s.link.driving = true → turnToTarget s = turned false)

/-- 42_transaction.md R147: a read answered `OK` samples 32 data bits and their parity with no turnaround after the acknowledgement, returns
the word, and leaves the line released. Whatever the `data` operand holds. -/
def Obligations.TransferRead : Prop :=
  ∀ (s : State) (addr : Addr) (isAP : Bit) (data w : Word32) (a : BitVec 3) (rest : List Bit), Ready s → aligned addr = true →
    decodeAck s.par a = .ok → s.answers = wireBits a ++ wireBits w ++ parity32 w :: rest →
    exec (.transfer addr isAP true data) s = .next (((((s.latchTransfer addr isAP true data).leaving rest).wires
      (lead s ++ drivenCycles (wireBits (header s.par isAP true addr)) ++ List.replicate s.par.trn .z ++ sampledCycles (wireBits a)
        ++ sampledCycles (wireBits w) ++ [.sampled (parity32 w)])
      s.par.parkBit false).reply (.okOutcome (.okData w)) (some .ok) false 0))

/-- 42_transaction.md R149: a read whose parity bit differs is `PARITY_ERROR`, shows `OK` and `res.parityError`, returns no word, is not
drained, and leaves the line released. -/
def Obligations.TransferParityError : Prop :=
  ∀ (s : State) (addr : Addr) (isAP : Bit) (data w : Word32) (a : BitVec 3) (rest : List Bit), Ready s → aligned addr = true →
    decodeAck s.par a = .ok → s.answers = wireBits a ++ wireBits w ++ (!parity32 w) :: rest →
    exec (.transfer addr isAP true data) s = .next (((((s.latchTransfer addr isAP true data).leaving rest).wires
      (lead s ++ drivenCycles (wireBits (header s.par isAP true addr)) ++ List.replicate s.par.trn .z ++ sampledCycles (wireBits a)
        ++ sampledCycles (wireBits w) ++ [.sampled (!parity32 w)])
      s.par.parkBit false).reply (.okOutcome .parityError) (some .ok) true 0))

/-- 42_transaction.md R148: a write answered `OK` turns the line round and drives 32 data bits and their parity; it ends at the level of the
parity bit, or low after `POST_IDLE` cycles. -/
def Obligations.TransferWrite : Prop :=
  ∀ (s : State) (addr : Addr) (isAP : Bit) (data : Word32) (a : BitVec 3) (rest : List Bit), Ready s → aligned addr = true →
    decodeAck s.par a = .ok → s.answers = wireBits a ++ rest →
    exec (.transfer addr isAP false data) s = .next (((((s.latchTransfer addr isAP false data).leaving rest).wires
      (lead s ++ drivenCycles (wireBits (header s.par isAP false addr)) ++ List.replicate s.par.trn .z ++ sampledCycles (wireBits a)
        ++ List.replicate s.par.trn .z ++ drivenCycles (wireBits data) ++ [.driven (parity32 data)]
        ++ List.replicate s.par.postIdle .d0)
      (if 0 < s.par.postIdle then false else parity32 data) true).reply (.okOutcome .ok) (some .ok) false 0))

/-- 42_transaction.md R150: any other acknowledgement, read or write alike, is drained: a turnaround, the dummy word, the park bit. -/
def Obligations.TransferDrain : Prop :=
  ∀ (s : State) (addr : Addr) (isAP isRead : Bit) (data : Word32) (a : BitVec 3) (rest : List Bit), Ready s → aligned addr = true →
    decodeAck s.par a ≠ .ok → s.answers = wireBits a ++ rest →
    exec (.transfer addr isAP isRead data) s = .next (((((s.latchTransfer addr isAP isRead data).leaving rest).wires
      (lead s ++ drivenCycles (wireBits (header s.par isAP isRead addr)) ++ List.replicate s.par.trn .z ++ sampledCycles (wireBits a)
        ++ List.replicate s.par.trn .z ++ drivenCycles (wireBits s.par.dummyWord) ++ [.driven s.par.drainPark]
        ++ List.replicate s.par.postIdle .d0)
      (if 0 < s.par.postIdle then false else s.par.drainPark) true).reply
        (.okOutcome (outcomeOf (decodeAck s.par a))) (some (decodeAck s.par a)) false 0))

/-- 20_memory.md R55: an address with `addr[1:0] != 0` is `InvalidArgument` and puts nothing on the wire, for the five commands that take
one; and bits 7 to 4 do not reach the wire. -/
def Obligations.RegisterAddress : Prop :=
  (∀ (s : State) (addr : Addr), s.link.initialized = true → addr.extractLsb' 0 2 ≠ 0#2 →
    (∀ isAP isRead data, exec (.transfer addr isAP isRead data) s =
      .next ((s.latchTransfer addr isAP isRead data).reply (.err .invalidArgument none) none false 0)) ∧
    exec (.dpRead addr) s = .next ((s.latchAddr addr).reply (.err .invalidArgument none) none false 0) ∧
    (∀ data, exec (.dpWrite addr data) s = .next ((s.latchWrite addr data).reply (.err .invalidArgument none) none false 0)) ∧
    exec (.apRead addr) s = .next ((s.latchAddr addr).reply (.err .invalidArgument none) none false 0) ∧
    (∀ data, exec (.apWrite addr data) s = .next ((s.latchWrite addr data).reply (.err .invalidArgument none) none false 0))) ∧
  (∀ (q : Request) (addr : Addr) (s : State), addr.extractLsb' 2 2 = q.addr.extractLsb' 2 2 →
    frame { q with addr := addr } s = frame q s)

/-- 42_transaction.md R140: `op.wdata` is ignored on a read, and on a request that is not acknowledged `OK`. -/
def Obligations.DataOperandIgnored : Prop :=
  ∀ (q : Request) (data : Word32) (s : State),
    (q.isRead = true → frame { q with data := data } s = frame q s) ∧
    ((frame q s).1 ≠ .ok → frame { q with data := data } s = frame q s)

/-! ### Register access -/

/-- 43_register_access.md R172: `dpRead`, after any run of fewer than `RETRY_BOUND` attempts answered `WAIT`, or `FAULT` and cleared, and then
a read answered `OK` with the right parity: the word, the count of attempts, every cycle, the line released. -/
def Obligations.DpReadReturnsWord : Prop :=
  ∀ (s : State) (addr : Addr) (h : List Setback) (w : Word32) (rest : List Bit), Ready s → AcksDistinct s.par → aligned addr = true →
    h.length < s.par.retryBound →
    s.answers = setbackAnswers s.par h ++ wireBits s.par.ackOk ++ wireBits w ++ parity32 w :: rest →
    let q : Request := { addr := addr, isAP := false, isRead := true, data := 0#32 }
    exec (.dpRead addr) s = .next (((((s.latchAddr addr).leaving rest).wires
      (lead s ++ setbackCycles s.par q h ++ readFrame s.par q s.par.ackOk w (parity32 w)) s.par.parkBit false).reply
        (.okWord w) (some .ok) false (h.length + 1)))

/-- 43_register_access.md R173, R175: the same for `dpWrite` and `apWrite`: the last frame carries the data and its parity, and the line
ends driven. -/
def Obligations.WritesReturnOk : Prop :=
  ∀ (s : State) (addr : Addr) (data : Word32) (h : List Setback) (rest : List Bit), Ready s → AcksDistinct s.par →
    aligned addr = true → h.length < s.par.retryBound →
    s.answers = setbackAnswers s.par h ++ wireBits s.par.ackOk ++ rest →
    let after := fun q : Request => (((((s.latchWrite addr data).leaving rest).wires
      (lead s ++ setbackCycles s.par q h ++ writeFrame s.par q s.par.ackOk) (restLevel s.par (parity32 data)) true).reply
        .ok (some .ok) false (h.length + 1)))
    exec (.dpWrite addr data) s = .next (after { addr := addr, isAP := false, isRead := false, data := data }) ∧
    exec (.apWrite addr data) s = .next (after { addr := addr, isAP := true, isRead := false, data := data })

/-- 43_register_access.md R174: `apRead` posts the AP read, whose word is discarded, hands the line back with the turnaround owed, and
returns the word of the read-buffer register; each loop has its own budget and the attempts are summed. -/
def Obligations.ApReadReturnsBufferedWord : Prop :=
  ∀ (s : State) (addr : Addr) (h g : List Setback) (stale w : Word32) (rest : List Bit), Ready s → AcksDistinct s.par →
    aligned addr = true → h.length < s.par.retryBound → g.length < s.par.retryBound →
    s.answers = setbackAnswers s.par h ++ wireBits s.par.ackOk ++ wireBits stale ++ parity32 stale ::
      (setbackAnswers s.par g ++ wireBits s.par.ackOk ++ wireBits w ++ parity32 w :: rest) →
    let q1 : Request := { addr := addr, isAP := true, isRead := true, data := 0#32 }
    let q2 : Request := { addr := s.par.dpRdbuffAddr, isAP := false, isRead := true, data := 0#32 }
    exec (.apRead addr) s = .next (((((s.latchAddr addr).leaving rest).wires
      (lead s ++ setbackCycles s.par q1 h ++ readFrame s.par q1 s.par.ackOk stale (parity32 stale)
        ++ trnCycles s.par ++ setbackCycles s.par q2 g ++ readFrame s.par q2 s.par.ackOk w (parity32 w)) s.par.parkBit false).reply
        (.okWord w) (some .ok) false (h.length + 1 + (g.length + 1))))

/-- 43_register_access.md R177, R178: a loop whose every attempt is answered `WAIT`, or `FAULT` and cleared, makes exactly `RETRY_BOUND`
attempts, the abort write following the last one too, and returns `Err(ProtocolTimeout, last)`. That `res.ack` then shows the outcome
`info` carries and not the acknowledgement of a last abort write is assumption 8. -/
def Obligations.LoopTimesOut : Prop :=
  ∀ (s : State) (i : Instr) (q : Request) (h : List Setback) (b : Setback) (rest : List Bit), Ready s → AcksDistinct s.par →
    loopRequest i = some q → aligned q.addr = true → h.length + 1 = s.par.retryBound →
    s.answers = setbackAnswers s.par (h ++ [b]) ++ rest →
    exec i s = .next (((((s.issued i).leaving rest).wires
      (lead s ++ setbackCycles s.par q (h ++ [b])) (b.level s.par) true).reply
        (.err .protocolTimeout (some b.outcome)) (some b.outcome.toAck) false s.par.retryBound))

/-- 43_register_access.md R174, R177: `apRead` whose first loop times out never starts the second. -/
def Obligations.ApReadTimesOutFirst : Prop :=
  ∀ (s : State) (addr : Addr) (h : List Setback) (b : Setback) (rest : List Bit), Ready s → AcksDistinct s.par →
    aligned addr = true → h.length + 1 = s.par.retryBound →
    s.answers = setbackAnswers s.par (h ++ [b]) ++ rest →
    exec (.apRead addr) s = .next (((((s.latchAddr addr).leaving rest).wires
      (lead s ++ setbackCycles s.par (apReadRequest addr) (h ++ [b])) (b.level s.par) true).reply
        (.err .protocolTimeout (some b.outcome)) (some b.outcome.toAck) false s.par.retryBound))

/-- 43_register_access.md R174: `apRead` whose second loop times out: the attempts of both loops are summed. -/
def Obligations.ApReadTimesOutSecond : Prop :=
  ∀ (s : State) (addr : Addr) (h g : List Setback) (b : Setback) (stale : Word32) (rest : List Bit), Ready s → AcksDistinct s.par →
    aligned addr = true → h.length < s.par.retryBound → g.length + 1 = s.par.retryBound →
    s.answers = setbackAnswers s.par h ++ wireBits s.par.ackOk ++ wireBits stale ++ parity32 stale ::
      (setbackAnswers s.par (g ++ [b]) ++ rest) →
    exec (.apRead addr) s = .next (((((s.latchAddr addr).leaving rest).wires
      (lead s ++ setbackCycles s.par (apReadRequest addr) h ++ readFrame s.par (apReadRequest addr) s.par.ackOk stale (parity32 stale)
        ++ trnCycles s.par ++ setbackCycles s.par (rdbuffRequest s.par) (g ++ [b])) (b.level s.par) true).reply
        (.err .protocolTimeout (some b.outcome)) (some b.outcome.toAck) false (h.length + 1 + s.par.retryBound)))

/-- 43_register_access.md R178: an abort write that is not acknowledged `OK` is not repeated, and ends the command with the error of
`clearErrors`, in the loop of `dpRead`, `dpWrite` or `apWrite` and in either loop of `apRead` (R174), whose attempts are then summed. That
an invalid acknowledgement of the abort write ends the command under `NONRETRY_POLICY = retry` too is the model's reading,
assumption 26. -/
def Obligations.AbortFailureEndsLoop : Prop :=
  ∀ (s : State) (fs : List Failure) (a : BitVec 3) (rest : List Bit), Ready s → AcksDistinct s.par → decodeAck s.par a ≠ .ok →
    fs.length < s.par.retryBound →
    let r : CmdResult :=
      .err (if decodeAck s.par a = .wait then .protocolTimeout else .protocolFault) (some (outcomeOf (decodeAck s.par a)))
    let ended := fun (t : State) (q : Request) (before : List Cycle) (attempts : Nat) => ((t.leaving rest).wires
      (before ++ failureCycles s.par q fs ++ drainFrame s.par q s.par.ackFault ++ drainFrame s.par (abortRequest s.par) a)
      (restLevel s.par s.par.drainPark) true).reply r (some (decodeAck s.par a)) false attempts
    let answers := failureAnswers s.par fs ++ wireBits s.par.ackFault ++ wireBits a ++ rest
    (∀ i q, LoopsOn i q → aligned q.addr = true → (∀ f ∈ fs, f.retried s.par q) → s.answers = answers →
      exec i s = .next (ended (s.issued i) q (lead s) (fs.length + 1))) ∧
    (∀ addr gs stale, Posted s.par addr gs → (∀ f ∈ fs, f.retried s.par (rdbuffRequest s.par)) →
      s.answers = postedAnswers s.par gs stale ++ answers →
      exec (.apRead addr) s = .next (ended (s.latchAddr addr) (rdbuffRequest s.par) (lead s ++ postedCycles s.par addr gs stale)
        (gs.length + 1 + (fs.length + 1))))

/-- 43_register_access.md R179, `fail_fast`: an invalid acknowledgement ends the command at once, after its drain, in the loop of `dpRead`,
`dpWrite` or `apWrite` and in either loop of `apRead` (R174). -/
def Obligations.InvalidAckEndsLoop : Prop :=
  ∀ (s : State) (fs : List Failure) (a : BitVec 3) (rest : List Bit), Ready s → s.par.nonretryPolicy = .failFast →
    decodeAck s.par a = .protocolError → fs.length < s.par.retryBound →
    let ended := fun (t : State) (q : Request) (before : List Cycle) (attempts : Nat) => ((t.leaving rest).wires
      (before ++ failureCycles s.par q fs ++ drainFrame s.par q a) (restLevel s.par s.par.drainPark) true).reply
        (.err .protocolFault (some .protocolError)) (some .protocolError) false attempts
    let answers := failureAnswers s.par fs ++ wireBits a ++ rest
    (∀ i q, LoopsOn i q → aligned q.addr = true → (∀ f ∈ fs, f.retried s.par q) → s.answers = answers →
      exec i s = .next (ended (s.issued i) q (lead s) (fs.length + 1))) ∧
    (∀ addr gs stale, Posted s.par addr gs → (∀ f ∈ fs, f.retried s.par (rdbuffRequest s.par)) →
      s.answers = postedAnswers s.par gs stale ++ answers →
      exec (.apRead addr) s = .next (ended (s.latchAddr addr) (rdbuffRequest s.par) (lead s ++ postedCycles s.par addr gs stale)
        (gs.length + 1 + (fs.length + 1))))

/-- 43_register_access.md R179, `fail_fast`: a parity error ends a read at once, in `dpRead` and in either loop of `apRead`, the discarded
word of the first included (R174); the line is left released. -/
def Obligations.ParityErrorEndsLoop : Prop :=
  ∀ (s : State) (fs : List Failure) (w : Word32) (rest : List Bit), Ready s → s.par.nonretryPolicy = .failFast →
    fs.length < s.par.retryBound →
    let ended := fun (t : State) (q : Request) (before : List Cycle) (attempts : Nat) => ((t.leaving rest).wires
      (before ++ failureCycles s.par q fs ++ readFrame s.par q s.par.ackOk w (!parity32 w)) s.par.parkBit false).reply
        (.err .protocolFault (some .parityError)) (some .ok) true attempts
    let answers := failureAnswers s.par fs ++ wireBits s.par.ackOk ++ wireBits w ++ (!parity32 w) :: rest
    (∀ i q, LoopsOn i q → q.isRead = true → aligned q.addr = true → (∀ f ∈ fs, f.retried s.par q) → s.answers = answers →
      exec i s = .next (ended (s.issued i) q (lead s) (fs.length + 1))) ∧
    (∀ addr gs stale, Posted s.par addr gs → (∀ f ∈ fs, f.retried s.par (rdbuffRequest s.par)) →
      s.answers = postedAnswers s.par gs stale ++ answers →
      exec (.apRead addr) s = .next (ended (s.latchAddr addr) (rdbuffRequest s.par) (lead s ++ postedCycles s.par addr gs stale)
        (gs.length + 1 + (fs.length + 1))))

/-- 43_register_access.md R179, `NONRETRY_POLICY = retry`: invalid acknowledgements and parity errors count as failed attempts beside the
setbacks, in any order, and a loop of `RETRY_BOUND` failed attempts ends in `Err(ProtocolTimeout, last)`, in `dpRead`, `dpWrite` or
`apWrite` and in either loop of `apRead` (R174). That `res.ack` then shows the outcome `info` carries is assumption 8. -/
def Obligations.RetryPolicyTimesOut : Prop :=
  ∀ (s : State) (fs : List Failure) (l : Failure) (rest : List Bit), Ready s → fs.length + 1 = s.par.retryBound →
    let ended := fun (t : State) (q : Request) (before : List Cycle) (attempts : Nat) => ((t.leaving rest).wires
      (before ++ failureCycles s.par q fs ++ l.cycles s.par q) (l.level s.par) (drivesAfter l.outcome)).reply
        (.err .protocolTimeout (some l.outcome)) (some l.outcome.toAck) (l.outcome == .parityError) attempts
    let answers := failureAnswers s.par (fs ++ [l]) ++ rest
    (∀ i q, LoopsOn i q → aligned q.addr = true → (∀ f ∈ fs ++ [l], f.retried s.par q) → s.answers = answers →
      exec i s = .next (ended (s.issued i) q (lead s) s.par.retryBound)) ∧
    (∀ addr gs stale, Posted s.par addr gs → (∀ f ∈ fs ++ [l], f.retried s.par (rdbuffRequest s.par)) →
      s.answers = postedAnswers s.par gs stale ++ answers →
      exec (.apRead addr) s = .next (ended (s.latchAddr addr) (rdbuffRequest s.par) (lead s ++ postedCycles s.par addr gs stale)
        (gs.length + 1 + s.par.retryBound)))

/-- 43_register_access.md R179, `NONRETRY_POLICY = retry`: after any run of fewer than `RETRY_BOUND` failed attempts, bad words and invalid
acknowledgements among them, the request is made again, after the turnaround a bad word leaves owed, and its answer is the command's: for
`dpRead`, for both loops of `apRead`, and for the two writes. -/
def Obligations.RetryPolicyRereads : Prop :=
  ∀ (s : State) (addr : Addr) (fs : List Failure) (rest : List Bit), Ready s → aligned addr = true → fs.length < s.par.retryBound →
    let answered := fun w : Word32 => failureAnswers s.par fs ++ wireBits s.par.ackOk ++ wireBits w ++ parity32 w :: rest
    let read := fun (q : Request) (before : List Cycle) (w : Word32) (attempts : Nat) => (((s.latchAddr addr).leaving rest).wires
      (before ++ failureCycles s.par q fs ++ readFrame s.par q s.par.ackOk w (parity32 w)) s.par.parkBit false).reply
        (.okWord w) (some .ok) false attempts
    let written := fun q : Request => (((s.latchWrite addr q.data).leaving rest).wires
      (lead s ++ failureCycles s.par q fs ++ writeFrame s.par q s.par.ackOk) (restLevel s.par (parity32 q.data)) true).reply
        .ok (some .ok) false (fs.length + 1)
    (∀ w, let q : Request := { addr := addr, isAP := false, isRead := true, data := 0#32 }
      (∀ f ∈ fs, f.retried s.par q) → s.answers = answered w →
      exec (.dpRead addr) s = .next (read q (lead s) w (fs.length + 1))) ∧
    (∀ gs stale w, Posted s.par addr gs → (∀ f ∈ fs, f.retried s.par (rdbuffRequest s.par)) →
      s.answers = postedAnswers s.par gs stale ++ answered w →
      exec (.apRead addr) s = .next (read (rdbuffRequest s.par) (lead s ++ postedCycles s.par addr gs stale) w
        (gs.length + 1 + (fs.length + 1)))) ∧
    (∀ isAP data, let q : Request := { addr := addr, isAP := isAP, isRead := false, data := data }
      (∀ f ∈ fs, f.retried s.par q) → s.answers = failureAnswers s.par fs ++ wireBits s.par.ackOk ++ rest →
      exec (if isAP then .apWrite addr data else .dpWrite addr data) s = .next (written q))

/-- 43_register_access.md R176: `clearErrors` is one write of the abort pattern to the abort register, never repeated: `Ok`, or the error
class of its acknowledgement; the line ends driven. -/
def Obligations.ClearErrors : Prop :=
  ∀ (s : State) (a : BitVec 3) (rest : List Bit), s.answers = wireBits a ++ rest →
    let q : Request := { addr := s.par.dpAbortAddr, isAP := false, isRead := false, data := s.par.abortClear }
    let drained := fun r k => (((s.leaving rest).wires (lead s ++ drainFrame s.par q a) (restLevel s.par s.par.drainPark) true).reply
      r (some k) false 0)
    (Ready s → decodeAck s.par a = .ok → exec .clearErrors s = .next (((s.leaving rest).wires (lead s ++ writeFrame s.par q a)
      (restLevel s.par (parity32 s.par.abortClear)) true).reply .ok (some .ok) false 0)) ∧
    (Ready s → decodeAck s.par a = .wait →
      exec .clearErrors s = .next (drained (.err .protocolTimeout (some .wait)) .wait)) ∧
    (Ready s → decodeAck s.par a = .fault →
      exec .clearErrors s = .next (drained (.err .protocolFault (some .fault)) .fault)) ∧
    (Ready s → decodeAck s.par a = .protocolError →
      exec .clearErrors s = .next (drained (.err .protocolFault (some .protocolError)) .protocolError)) ∧
    (s.link.initialized = false → exec .clearErrors s = .next (s.reply (.err .invalidState none) none false 0))

/-! ### Errors, for every command and every oracle -/

/-- 60_exceptions.md R194: before a successful `init` every command but `init` returns `Err(InvalidState)`, tested before any argument check,
and changes nothing but the response port; the operand registers hold what the host issued (10_state.md R30). -/
def Obligations.NotInitialised : Prop :=
  ∀ (s : State) (i : Instr), s.link.initialized = false → isCommand i = true → i ≠ .init →
    exec i s = .next ((s.issued i).reply (.err .invalidState none) none false 0)

/-- 60_exceptions.md R192, R194, Table EC: `InvalidArgument` and `InvalidState` are returned exactly on their causes, and then no cycle is
generated, no pin moves and no acknowledgement is shown. -/
def Obligations.ErrorCauses : Prop :=
  ∀ (s t : State) (i : Instr), exec i s = .next t →
    (t.res.status = .error .invalidArgument ↔
      i.codeAssigned = false ∨ (i = .init ∧ configOk s.par s.op.config = false) ∨
      (s.link.initialized = true ∧ (i.addrAligned = false ∨ ((∃ b, i = .setResetPin b) ∧ s.cfg.pinRst = none)))) ∧
    (t.res.status = .error .invalidState ↔ i.codeAssigned = true ∧ i ≠ .init ∧ s.link.initialized = false) ∧
    (t.res.status = .error .invalidArgument ∨ t.res.status = .error .invalidState →
      t = (s.issued i).reply (.err (if s.link.initialized = false ∧ i.codeAssigned = true ∧ i ≠ .init then .invalidState
        else .invalidArgument) none) none false 0) ∧
    t.res.status ≠ .error .unexpectedDevice ∧ t.res.status ≠ .error .verificationFailed ∧ t.res.status ≠ .error .resourceExhausted

/-- 60_exceptions.md Table EL and 42_transaction.md R153: which way the line is left, for every answer of the target: by the outcome the
result carries, and on success by whether the command reads. -/
def Obligations.DirectionAfter : Prop :=
  ∀ (s t : State) (i : Instr), Ready s → exec i s = .next t →
    i ∈ [Instr.clearErrors] ∨ (∃ a p r d, i = .transfer a p r d) ∨ (∃ a, i = .apRead a) ∨ (∃ q, loopRequest i = some q) →
    (∀ o, t.res.info = some o → t.link.driving = drivesAfter o) ∧
    (t.res.info = none → t.res.status = .ok →
      t.link.driving = (match i with | .dpRead _ => false | .apRead _ => false | _ => true)) ∧
    (t.res.status = .error .invalidArgument → t.link = s.link)

/-- 43_register_access.md R177, R174, 10_state.md R33: the attempts a command reports: none without a loop, at most `RETRY_BOUND` with one,
and at most twice that for `apRead`. -/
def Obligations.AttemptsBounded : Prop :=
  ∀ (s t : State) (i : Instr), exec i s = .next t →
    ((∃ q, loopRequest i = some q) → t.res.attempts ≤ s.par.retryBound) ∧
    ((∃ a, i = .apRead a) → t.res.attempts ≤ 2 * s.par.retryBound) ∧
    (loopRequest i = none → (∀ a, i ≠ .apRead a) → t.res.attempts = 0)

/-! ### Whole-machine rules -/

/-- 70_reset_and_hazards.md R242, R6: every instruction, in every state and for every answer of the target, returns after a bounded number of
cycles, and only adds to the trace (10_state.md R40). The bounds are those of `maxCycles` (R241). -/
def Obligations.EveryInstructionReturns : Prop :=
  ∀ (i : Instr) (s : State), ∃ t, exec i s = .next t ∧ t.busy = false ∧ Appends s t (maxCycles s i)

/-- 70_reset_and_hazards.md R241: with the defaults and the line driven on entry, each of the seventeen commands answers a next state and
appends at most the cycles R241 gives it, for every operand and every answer of the target. -/
def Obligations.DefaultBounds : Prop :=
  ∀ s : State, s.par = tableP → s.link.driving = true →
    let within := fun (i : Instr) (n : Nat) => ∃ t, exec i s = .next t ∧ Appends s t n
    within .init 0 ∧ within .clockPulse 1 ∧ (∀ b, within (.driveLine b) 0) ∧ within .releaseLine 0 ∧ within .readLine 0 ∧
    (∀ b, within (.setResetPin b) 0) ∧ (∀ b, within (.setConnected b) 0) ∧ within .lineReset 52 ∧ within .switchSequence 68 ∧
    within .dormantWake 200 ∧ within .dormantEnter 76 ∧ (∀ a p r d, within (.transfer a p r d) 46) ∧
    (∀ a, within (.dpRead a) 920) ∧ (∀ a d, within (.dpWrite a d) 920) ∧ (∀ a, within (.apRead a) 1794) ∧
    (∀ a d, within (.apWrite a d) 920) ∧ within .clearErrors 46

/-- 10_state.md R23, R40 and Table CR: the parameter record is never written; the configuration is written by `init` alone, whole; both
traces only grow. -/
def Obligations.ConfigurationWriters : Prop :=
  ∀ (s t : State) (i : Instr), exec i s = .next t →
    t.par = s.par ∧ (i ≠ .init → t.cfg = s.cfg) ∧
    (i = .init → t.cfg = (if configOk s.par s.op.config = true then s.op.config else s.cfg)) ∧
    s.trace <+: t.trace ∧ s.rstTrace <+: t.rstTrace ∧ (t.rstTrace ≠ s.rstTrace → i = .init ∨ ∃ b, i = .setResetPin b)

/-- 10_state.md R25, R26: `initialized` is set by a successful `init` and never cleared; `connected` is written by `init` and `setConnected`
alone. -/
def Obligations.LinkFlagWriters : Prop :=
  ∀ (s t : State) (i : Instr), exec i s = .next t →
    (t.link.initialized = (s.link.initialized || (i == .init && configOk s.par s.op.config))) ∧
    (t.link.connected ≠ s.link.connected →
      (i = .init ∧ t.link.connected = false) ∨ ∃ b, i = .setConnected b ∧ t.link.connected = b)

/-- 10_state.md R26: no instruction reads `connected`: a run that differs only in it ends in a state that differs at most in it. -/
def Obligations.ConnectedIsNotRead : Prop :=
  ∀ (s t : State) (i : Instr) (b : Bool), exec i s = .next t →
    ∃ c, exec i { s with link := { s.link with connected := b } } = .next { t with link := { t.link with connected := c } }

/-- 70_reset_and_hazards.md R240: two runs that differ only in `halfDelay` (the one in force and the one on the configuration port) have the
same results, traces and end states, but for `halfDelay`. -/
def Obligations.HalfDelayHasNoEffect : Prop :=
  ∀ (s t : State) (d e : Nat), step s = .next t → ∃ d' e', step (s.withDelay d e) = .next (t.withDelay d' e')

/-! ### The wire formats as rows of their own (model: assumptions 9, 10, 11) -/

/-- The sixteen request headers of Table RQ, presented alone: the turnaround if one is owed, then the eight bits driven, bit 0 first, the
line left driven at the park level (30_encoding.md R79, 42_transaction.md R145; assumption 9). -/
def Obligations.HeaderRows : Prop :=
  ∀ (s : State) (i : Instr) (h : BitVec 8), Ready s →
    (i, h) ∈ [(Instr.reqDpW0, 0x81#8), (.reqDpW4, 0xA9#8), (.reqDpW8, 0xB1#8), (.reqDpWC, 0x99#8), (.reqDpR0, 0xA5#8), (.reqDpR4, 0x8D#8),
      (.reqDpR8, 0x95#8), (.reqDpRC, 0xBD#8), (.reqApW0, 0xA3#8), (.reqApW4, 0x8B#8), (.reqApW8, 0x93#8), (.reqApWC, 0xBB#8),
      (.reqApR0, 0x87#8), (.reqApR4, 0xAF#8), (.reqApR8, 0xB7#8), (.reqApRC, 0x9F#8)] →
    exec i s = .next ((s.wires (lead s ++ drivenCycles (wireBits h)) true true).reply .ok none false 0)

/-- The eight acknowledgement values of Table AK, presented alone: SWDLC hands the line over if it drives it, takes the three samples, bit 0
first, and shows what they decode to (42_transaction.md R142, R146; assumption 10). -/
def Obligations.AckRows : Prop :=
  ∀ (s : State) (i : Instr) (a : BitVec 3), Ready s →
    (i, a) ∈ [(Instr.ackProtocolError000, 0b000#3), (.ackOk, 0b001#3), (.ackWait, 0b010#3), (.ackProtocolError011, 0b011#3),
      (.ackFault, 0b100#3), (.ackProtocolError101, 0b101#3), (.ackProtocolError110, 0b110#3), (.ackProtocolError111, 0b111#3)] →
    exec i s = .next ((s.wires ((if s.link.driving then turnaround s.sampled s.par.trn else []) ++ sampledCycles (wireBits a))
      s.dioOut false).reply .ok (some (decodeAck s.par a)) false 0)

/-- The four wire constants of R86 to R89, presented alone: the turnaround if one is owed, then every bit driven, bit 0 first
(assumption 11). -/
def Obligations.ConstantRows : Prop :=
  ∀ s : State, Ready s →
    exec .jtagToSwd s = .next ((s.wires (lead s ++ drivenCycles (wireBits 0xE79E#16)) true true).reply .ok none false 0) ∧
    exec .selectionAlert s = .next ((s.wires
      (lead s ++ drivenCycles (wireBits 0x19BC0EA2E3DDAFE986852D956209F392#128)) false true).reply .ok none false 0) ∧
    exec .activationCode s = .next ((s.wires (lead s ++ drivenCycles (wireBits 0x1A#8)) false true).reply .ok none false 0) ∧
    exec .toDormant s = .next ((s.wires (lead s ++ drivenCycles (wireBits 0xE3BC#16)) true true).reply .ok none false 0)
end

