-- ==== Sys2Proof/Laws/Bits.lean ====
section
/-! SUPPORT. Bits in wire order: their number, their values, and that a value assembled from its own bits is itself. -/

namespace Sys2Proof.Machine

@[simp] theorem bitsFrom_length {w : Nat} (v : BitVec w) (lo n : Nat) : (bitsFrom v lo n).length = n := by
  induction n generalizing lo with
  | zero => rfl
  | succ n ih => simp [bitsFrom, ih]

@[simp] theorem wireBits_length {w : Nat} (v : BitVec w) : (wireBits v).length = w := by simp [wireBits]

/-- Bit `i` of the wire order is bit `lo + i` of the value. -/
theorem bitsFrom_getElem? {w : Nat} (v : BitVec w) (lo n i : Nat) (h : i < n) :
    (bitsFrom v lo n)[i]? = some (v.getLsbD (lo + i)) := by
  induction n generalizing lo i with
  | zero => omega
  | succ n ih =>
    cases i with
    | zero => simp [bitsFrom]
    | succ i =>
      simp only [bitsFrom, List.getElem?_cons_succ]
      rw [ih (lo + 1) i (by omega)]
      congr 2; omega

/-- Bit 0 is sent first (00_scope.md R10). -/
theorem wireBits_getElem? {w : Nat} (v : BitVec w) (i : Nat) (h : i < w) : (wireBits v)[i]? = some (v.getLsbD i) := by
  simpa [wireBits] using bitsFrom_getElem? v 0 w i h

theorem natOfWire_testBit (bs : List Bit) (i : Nat) : (natOfWire bs).testBit i = bs[i]?.getD false := by
  induction bs generalizing i with
  | nil => simp [natOfWire]
  | cons b bs ih =>
    cases i with
    | zero => cases b <;> simp [natOfWire]
    | succ i =>
      have h : (b.toNat + 2 * natOfWire bs) / 2 = natOfWire bs := by cases b <;> (simp; try omega)
      simp [natOfWire, Nat.testBit_succ, h, ih]

/-- Bit `i` of an assembled value is sample `i` (42_transaction.md R157). -/
theorem assemble_getLsbD (w : Nat) (bs : List Bit) (i : Nat) :
    (assemble w bs).getLsbD i = (decide (i < w) && bs[i]?.getD false) := by
  simp [assemble, BitVec.getLsbD_ofNat, natOfWire_testBit]

/-- A value assembled from its own wire bits is itself. -/
@[simp] theorem assemble_wireBits {w : Nat} (v : BitVec w) : assemble w (wireBits v) = v := by
  apply BitVec.eq_of_getLsbD_eq
  intro i hi
  rw [assemble_getLsbD, wireBits_getElem? v i hi]
  simp [hi]

/-- Any `w` bits are the wire bits of the value assembled from them. -/
@[simp] theorem wireBits_assemble {w : Nat} (bs : List Bit) (h : bs.length = w) : wireBits (assemble w bs) = bs := by
  apply List.ext_getElem?
  intro i
  by_cases hi : i < w
  · rw [wireBits_getElem? _ i hi, assemble_getLsbD]
    simp [hi, List.getElem?_eq_getElem (h ▸ hi)]
  · rw [List.getElem?_eq_none (by simp; omega), List.getElem?_eq_none (by omega)]

theorem wireBits_ne_nil {w : Nat} (v : BitVec w) (h : 0 < w) : wireBits v ≠ [] := by
  intro e
  have := congrArg List.length e
  simp at this; omega

@[simp] theorem wireBits_ofBool (b : Bit) : wireBits (BitVec.ofBool b) = [b] := by cases b <;> rfl

@[simp] theorem drivenCycles_append (a b : List Bit) : drivenCycles (a ++ b) = drivenCycles a ++ drivenCycles b := by
  simp [drivenCycles]

@[simp] theorem sampledCycles_append (a b : List Bit) : sampledCycles (a ++ b) = sampledCycles a ++ sampledCycles b := by
  simp [sampledCycles]

@[simp] theorem drivenCycles_length (a : List Bit) : (drivenCycles a).length = a.length := by simp [drivenCycles]
@[simp] theorem sampledCycles_length (a : List Bit) : (sampledCycles a).length = a.length := by simp [sampledCycles]
@[simp] theorem drivenCycles_singleton (b : Bit) : drivenCycles [b] = [Cycle.driven b] := rfl
@[simp] theorem sampledCycles_singleton (b : Bit) : sampledCycles [b] = [Cycle.sampled b] := rfl
@[simp] theorem drivenCycles_nil : drivenCycles [] = [] := rfl
@[simp] theorem sampledCycles_nil : sampledCycles [] = [] := rfl

@[simp] theorem turnaround_length (m : Option Bit) (n : Nat) : (turnaround m n).length = n := by
  cases n <;> simp [turnaround]

@[simp] theorem turnaround_none (n : Nat) : turnaround none n = List.replicate n .z := by
  cases n <;> simp [turnaround, List.replicate_succ]

/-- The last bit sent of a value is its top bit. -/
theorem wireBits_getLast {w : Nat} (v : BitVec w) (h : wireBits v ≠ []) : (wireBits v).getLast h = v.getLsbD (w - 1) := by
  have hw : 0 < w := by
    rcases Nat.eq_zero_or_pos w with rfl | h'
    · exact absurd rfl h
    · exact h'
  have e := wireBits_getElem? v (w - 1) (by omega)
  rw [List.getLast_eq_getElem]
  simpa [List.getElem?_eq_getElem (show w - 1 < (wireBits v).length by simp; omega)] using e

end Sys2Proof.Machine
end

