-- ==== Sys2Proof/Laws/State.lean ====
section
/-! SUPPORT. One lemma per field per named update of the state, each true by `rfl`, so that no later proof unfolds a record update. -/

namespace Sys2Proof.Machine

variable (s : State)

/-! ### State.setClk -/

@[simp] theorem setClk_par (level : Bit) : (State.setClk level s).par = s.par := rfl
@[simp] theorem setClk_cfg (level : Bit) : (State.setClk level s).cfg = s.cfg := rfl
@[simp] theorem setClk_link (level : Bit) : (State.setClk level s).link = s.link := rfl
@[simp] theorem setClk_clk (level : Bit) : (State.setClk level s).clk = .driven level := rfl
@[simp] theorem setClk_dioOut (level : Bit) : (State.setClk level s).dioOut = s.dioOut := rfl
@[simp] theorem setClk_dioOE (level : Bit) : (State.setClk level s).dioOE = s.dioOE := rfl
@[simp] theorem setClk_rst (level : Bit) : (State.setClk level s).rst = s.rst := rfl
@[simp] theorem setClk_op (level : Bit) : (State.setClk level s).op = s.op := rfl
@[simp] theorem setClk_seq (level : Bit) : (State.setClk level s).seq = s.seq := rfl
@[simp] theorem setClk_busy (level : Bit) : (State.setClk level s).busy = s.busy := rfl
@[simp] theorem setClk_res (level : Bit) : (State.setClk level s).res = s.res := rfl
@[simp] theorem setClk_sampled (level : Bit) : (State.setClk level s).sampled = s.sampled := rfl
@[simp] theorem setClk_trace (level : Bit) : (State.setClk level s).trace = s.trace := rfl
@[simp] theorem setClk_rstTrace (level : Bit) : (State.setClk level s).rstTrace = s.rstTrace := rfl
@[simp] theorem setClk_port (level : Bit) : (State.setClk level s).port = s.port := rfl
@[simp] theorem setClk_answers (level : Bit) : (State.setClk level s).answers = s.answers := rfl
@[simp] theorem setClk_free (level : Bit) : (State.setClk level s).free = s.free := rfl

/-! ### State.record -/

@[simp] theorem record_par : (State.record s).par = s.par := rfl
@[simp] theorem record_cfg : (State.record s).cfg = s.cfg := rfl
@[simp] theorem record_link : (State.record s).link = s.link := rfl
@[simp] theorem record_clk : (State.record s).clk = s.clk := rfl
@[simp] theorem record_dioOut : (State.record s).dioOut = s.dioOut := rfl
@[simp] theorem record_dioOE : (State.record s).dioOE = s.dioOE := rfl
@[simp] theorem record_rst : (State.record s).rst = s.rst := rfl
@[simp] theorem record_op : (State.record s).op = s.op := rfl
@[simp] theorem record_seq : (State.record s).seq = s.seq := rfl
@[simp] theorem record_busy : (State.record s).busy = s.busy := rfl
@[simp] theorem record_res : (State.record s).res = s.res := rfl
@[simp] theorem record_sampled : (State.record s).sampled = none := rfl
@[simp] theorem record_trace : (State.record s).trace = s.trace ++ [s.cycleRecord] := rfl
@[simp] theorem record_rstTrace : (State.record s).rstTrace = s.rstTrace := rfl
@[simp] theorem record_port : (State.record s).port = s.port := rfl
@[simp] theorem record_answers : (State.record s).answers = s.answers := rfl
@[simp] theorem record_free : (State.record s).free = s.free := rfl

/-! ### pulse -/

@[simp] theorem pulse_par : (pulse s).par = s.par := rfl
@[simp] theorem pulse_cfg : (pulse s).cfg = s.cfg := rfl
@[simp] theorem pulse_link : (pulse s).link = s.link := rfl
@[simp] theorem pulse_clk : (pulse s).clk = .driven true := rfl
@[simp] theorem pulse_dioOut : (pulse s).dioOut = s.dioOut := rfl
@[simp] theorem pulse_dioOE : (pulse s).dioOE = s.dioOE := rfl
@[simp] theorem pulse_rst : (pulse s).rst = s.rst := rfl
@[simp] theorem pulse_op : (pulse s).op = s.op := rfl
@[simp] theorem pulse_seq : (pulse s).seq = s.seq := rfl
@[simp] theorem pulse_busy : (pulse s).busy = s.busy := rfl
@[simp] theorem pulse_res : (pulse s).res = s.res := rfl
@[simp] theorem pulse_sampled : (pulse s).sampled = none := rfl
@[simp] theorem pulse_trace : (pulse s).trace = s.trace ++ [s.cycleRecord] := rfl
@[simp] theorem pulse_rstTrace : (pulse s).rstTrace = s.rstTrace := rfl
@[simp] theorem pulse_port : (pulse s).port = s.port := rfl
@[simp] theorem pulse_answers : (pulse s).answers = s.answers := rfl
@[simp] theorem pulse_free : (pulse s).free = s.free := rfl

/-! ### drive -/

@[simp] theorem drive_par (b : Bit) : (drive b s).par = s.par := rfl
@[simp] theorem drive_cfg (b : Bit) : (drive b s).cfg = s.cfg := rfl
@[simp] theorem drive_link (b : Bit) : (drive b s).link = { s.link with driving := true } := rfl
@[simp] theorem drive_clk (b : Bit) : (drive b s).clk = s.clk := rfl
@[simp] theorem drive_dioOut (b : Bit) : (drive b s).dioOut = b := rfl
@[simp] theorem drive_dioOE (b : Bit) : (drive b s).dioOE = true := rfl
@[simp] theorem drive_rst (b : Bit) : (drive b s).rst = s.rst := rfl
@[simp] theorem drive_op (b : Bit) : (drive b s).op = s.op := rfl
@[simp] theorem drive_seq (b : Bit) : (drive b s).seq = s.seq := rfl
@[simp] theorem drive_busy (b : Bit) : (drive b s).busy = s.busy := rfl
@[simp] theorem drive_res (b : Bit) : (drive b s).res = s.res := rfl
@[simp] theorem drive_sampled (b : Bit) : (drive b s).sampled = s.sampled := rfl
@[simp] theorem drive_trace (b : Bit) : (drive b s).trace = s.trace := rfl
@[simp] theorem drive_rstTrace (b : Bit) : (drive b s).rstTrace = s.rstTrace := rfl
@[simp] theorem drive_port (b : Bit) : (drive b s).port = s.port := rfl
@[simp] theorem drive_answers (b : Bit) : (drive b s).answers = s.answers := rfl
@[simp] theorem drive_free (b : Bit) : (drive b s).free = s.free := rfl

/-! ### release -/

@[simp] theorem release_par : (release s).par = s.par := rfl
@[simp] theorem release_cfg : (release s).cfg = s.cfg := rfl
@[simp] theorem release_link : (release s).link = { s.link with driving := false } := rfl
@[simp] theorem release_clk : (release s).clk = s.clk := rfl
@[simp] theorem release_dioOut : (release s).dioOut = s.dioOut := rfl
@[simp] theorem release_dioOE : (release s).dioOE = false := rfl
@[simp] theorem release_rst : (release s).rst = s.rst := rfl
@[simp] theorem release_op : (release s).op = s.op := rfl
@[simp] theorem release_seq : (release s).seq = s.seq := rfl
@[simp] theorem release_busy : (release s).busy = s.busy := rfl
@[simp] theorem release_res : (release s).res = s.res := rfl
@[simp] theorem release_sampled : (release s).sampled = s.sampled := rfl
@[simp] theorem release_trace : (release s).trace = s.trace := rfl
@[simp] theorem release_rstTrace : (release s).rstTrace = s.rstTrace := rfl
@[simp] theorem release_port : (release s).port = s.port := rfl
@[simp] theorem release_answers : (release s).answers = s.answers := rfl
@[simp] theorem release_free : (release s).free = s.free := rfl

/-! ### State.enter -/

@[simp] theorem enter_par (p : Phase) : (State.enter p s).par = s.par := rfl
@[simp] theorem enter_cfg (p : Phase) : (State.enter p s).cfg = s.cfg := rfl
@[simp] theorem enter_link (p : Phase) : (State.enter p s).link = s.link := rfl
@[simp] theorem enter_clk (p : Phase) : (State.enter p s).clk = s.clk := rfl
@[simp] theorem enter_dioOut (p : Phase) : (State.enter p s).dioOut = s.dioOut := rfl
@[simp] theorem enter_dioOE (p : Phase) : (State.enter p s).dioOE = s.dioOE := rfl
@[simp] theorem enter_rst (p : Phase) : (State.enter p s).rst = s.rst := rfl
@[simp] theorem enter_op (p : Phase) : (State.enter p s).op = s.op := rfl
@[simp] theorem enter_seq (p : Phase) : (State.enter p s).seq = { s.seq with phase := p, bit := 0 } := rfl
@[simp] theorem enter_busy (p : Phase) : (State.enter p s).busy = s.busy := rfl
@[simp] theorem enter_res (p : Phase) : (State.enter p s).res = s.res := rfl
@[simp] theorem enter_sampled (p : Phase) : (State.enter p s).sampled = s.sampled := rfl
@[simp] theorem enter_trace (p : Phase) : (State.enter p s).trace = s.trace := rfl
@[simp] theorem enter_rstTrace (p : Phase) : (State.enter p s).rstTrace = s.rstTrace := rfl
@[simp] theorem enter_port (p : Phase) : (State.enter p s).port = s.port := rfl
@[simp] theorem enter_answers (p : Phase) : (State.enter p s).answers = s.answers := rfl
@[simp] theorem enter_free (p : Phase) : (State.enter p s).free = s.free := rfl

/-! ### State.atBit -/

@[simp] theorem atBit_par (i : Nat) : (State.atBit i s).par = s.par := rfl
@[simp] theorem atBit_cfg (i : Nat) : (State.atBit i s).cfg = s.cfg := rfl
@[simp] theorem atBit_link (i : Nat) : (State.atBit i s).link = s.link := rfl
@[simp] theorem atBit_clk (i : Nat) : (State.atBit i s).clk = s.clk := rfl
@[simp] theorem atBit_dioOut (i : Nat) : (State.atBit i s).dioOut = s.dioOut := rfl
@[simp] theorem atBit_dioOE (i : Nat) : (State.atBit i s).dioOE = s.dioOE := rfl
@[simp] theorem atBit_rst (i : Nat) : (State.atBit i s).rst = s.rst := rfl
@[simp] theorem atBit_op (i : Nat) : (State.atBit i s).op = s.op := rfl
@[simp] theorem atBit_seq (i : Nat) : (State.atBit i s).seq = { s.seq with bit := i } := rfl
@[simp] theorem atBit_busy (i : Nat) : (State.atBit i s).busy = s.busy := rfl
@[simp] theorem atBit_res (i : Nat) : (State.atBit i s).res = s.res := rfl
@[simp] theorem atBit_sampled (i : Nat) : (State.atBit i s).sampled = s.sampled := rfl
@[simp] theorem atBit_trace (i : Nat) : (State.atBit i s).trace = s.trace := rfl
@[simp] theorem atBit_rstTrace (i : Nat) : (State.atBit i s).rstTrace = s.rstTrace := rfl
@[simp] theorem atBit_port (i : Nat) : (State.atBit i s).port = s.port := rfl
@[simp] theorem atBit_answers (i : Nat) : (State.atBit i s).answers = s.answers := rfl
@[simp] theorem atBit_free (i : Nat) : (State.atBit i s).free = s.free := rfl

/-! ### State.setAttempt -/

@[simp] theorem setAttempt_par (n : Nat) : (State.setAttempt n s).par = s.par := rfl
@[simp] theorem setAttempt_cfg (n : Nat) : (State.setAttempt n s).cfg = s.cfg := rfl
@[simp] theorem setAttempt_link (n : Nat) : (State.setAttempt n s).link = s.link := rfl
@[simp] theorem setAttempt_clk (n : Nat) : (State.setAttempt n s).clk = s.clk := rfl
@[simp] theorem setAttempt_dioOut (n : Nat) : (State.setAttempt n s).dioOut = s.dioOut := rfl
@[simp] theorem setAttempt_dioOE (n : Nat) : (State.setAttempt n s).dioOE = s.dioOE := rfl
@[simp] theorem setAttempt_rst (n : Nat) : (State.setAttempt n s).rst = s.rst := rfl
@[simp] theorem setAttempt_op (n : Nat) : (State.setAttempt n s).op = s.op := rfl
@[simp] theorem setAttempt_seq (n : Nat) : (State.setAttempt n s).seq = { s.seq with attempt := n } := rfl
@[simp] theorem setAttempt_busy (n : Nat) : (State.setAttempt n s).busy = s.busy := rfl
@[simp] theorem setAttempt_res (n : Nat) : (State.setAttempt n s).res = s.res := rfl
@[simp] theorem setAttempt_sampled (n : Nat) : (State.setAttempt n s).sampled = s.sampled := rfl
@[simp] theorem setAttempt_trace (n : Nat) : (State.setAttempt n s).trace = s.trace := rfl
@[simp] theorem setAttempt_rstTrace (n : Nat) : (State.setAttempt n s).rstTrace = s.rstTrace := rfl
@[simp] theorem setAttempt_port (n : Nat) : (State.setAttempt n s).port = s.port := rfl
@[simp] theorem setAttempt_answers (n : Nat) : (State.setAttempt n s).answers = s.answers := rfl
@[simp] theorem setAttempt_free (n : Nat) : (State.setAttempt n s).free = s.free := rfl

/-! ### State.recordAck -/

@[simp] theorem recordAck_par (a : Ack) (pe : Bool) : (State.recordAck a pe s).par = s.par := rfl
@[simp] theorem recordAck_cfg (a : Ack) (pe : Bool) : (State.recordAck a pe s).cfg = s.cfg := rfl
@[simp] theorem recordAck_link (a : Ack) (pe : Bool) : (State.recordAck a pe s).link = s.link := rfl
@[simp] theorem recordAck_clk (a : Ack) (pe : Bool) : (State.recordAck a pe s).clk = s.clk := rfl
@[simp] theorem recordAck_dioOut (a : Ack) (pe : Bool) : (State.recordAck a pe s).dioOut = s.dioOut := rfl
@[simp] theorem recordAck_dioOE (a : Ack) (pe : Bool) : (State.recordAck a pe s).dioOE = s.dioOE := rfl
@[simp] theorem recordAck_rst (a : Ack) (pe : Bool) : (State.recordAck a pe s).rst = s.rst := rfl
@[simp] theorem recordAck_op (a : Ack) (pe : Bool) : (State.recordAck a pe s).op = s.op := rfl
@[simp] theorem recordAck_seq (a : Ack) (pe : Bool) : (State.recordAck a pe s).seq = s.seq := rfl
@[simp] theorem recordAck_busy (a : Ack) (pe : Bool) : (State.recordAck a pe s).busy = s.busy := rfl
@[simp] theorem recordAck_res (a : Ack) (pe : Bool) : (State.recordAck a pe s).res = { s.res with ack := some a, parityError := pe } := rfl
@[simp] theorem recordAck_sampled (a : Ack) (pe : Bool) : (State.recordAck a pe s).sampled = s.sampled := rfl
@[simp] theorem recordAck_trace (a : Ack) (pe : Bool) : (State.recordAck a pe s).trace = s.trace := rfl
@[simp] theorem recordAck_rstTrace (a : Ack) (pe : Bool) : (State.recordAck a pe s).rstTrace = s.rstTrace := rfl
@[simp] theorem recordAck_port (a : Ack) (pe : Bool) : (State.recordAck a pe s).port = s.port := rfl
@[simp] theorem recordAck_answers (a : Ack) (pe : Bool) : (State.recordAck a pe s).answers = s.answers := rfl
@[simp] theorem recordAck_free (a : Ack) (pe : Bool) : (State.recordAck a pe s).free = s.free := rfl

/-! ### State.countAttempt -/

@[simp] theorem countAttempt_par : (State.countAttempt s).par = s.par := rfl
@[simp] theorem countAttempt_cfg : (State.countAttempt s).cfg = s.cfg := rfl
@[simp] theorem countAttempt_link : (State.countAttempt s).link = s.link := rfl
@[simp] theorem countAttempt_clk : (State.countAttempt s).clk = s.clk := rfl
@[simp] theorem countAttempt_dioOut : (State.countAttempt s).dioOut = s.dioOut := rfl
@[simp] theorem countAttempt_dioOE : (State.countAttempt s).dioOE = s.dioOE := rfl
@[simp] theorem countAttempt_rst : (State.countAttempt s).rst = s.rst := rfl
@[simp] theorem countAttempt_op : (State.countAttempt s).op = s.op := rfl
@[simp] theorem countAttempt_seq : (State.countAttempt s).seq = s.seq := rfl
@[simp] theorem countAttempt_busy : (State.countAttempt s).busy = s.busy := rfl
@[simp] theorem countAttempt_res : (State.countAttempt s).res = { s.res with attempts := s.res.attempts + 1 } := rfl
@[simp] theorem countAttempt_sampled : (State.countAttempt s).sampled = s.sampled := rfl
@[simp] theorem countAttempt_trace : (State.countAttempt s).trace = s.trace := rfl
@[simp] theorem countAttempt_rstTrace : (State.countAttempt s).rstTrace = s.rstTrace := rfl
@[simp] theorem countAttempt_port : (State.countAttempt s).port = s.port := rfl
@[simp] theorem countAttempt_answers : (State.countAttempt s).answers = s.answers := rfl
@[simp] theorem countAttempt_free : (State.countAttempt s).free = s.free := rfl

/-! ### begin -/

@[simp] theorem begin_par : (begin s).par = s.par := rfl
@[simp] theorem begin_cfg : (begin s).cfg = s.cfg := rfl
@[simp] theorem begin_link : (begin s).link = s.link := rfl
@[simp] theorem begin_clk : (begin s).clk = s.clk := rfl
@[simp] theorem begin_dioOut : (begin s).dioOut = s.dioOut := rfl
@[simp] theorem begin_dioOE : (begin s).dioOE = s.dioOE := rfl
@[simp] theorem begin_rst : (begin s).rst = s.rst := rfl
@[simp] theorem begin_op : (begin s).op = s.op := rfl
@[simp] theorem begin_seq : (begin s).seq = s.seq := rfl
@[simp] theorem begin_busy : (begin s).busy = true := rfl
@[simp] theorem begin_res : (begin s).res = { s.res with ack := none, parityError := false, attempts := 0 } := rfl
@[simp] theorem begin_sampled : (begin s).sampled = s.sampled := rfl
@[simp] theorem begin_trace : (begin s).trace = s.trace := rfl
@[simp] theorem begin_rstTrace : (begin s).rstTrace = s.rstTrace := rfl
@[simp] theorem begin_port : (begin s).port = s.port := rfl
@[simp] theorem begin_answers : (begin s).answers = s.answers := rfl
@[simp] theorem begin_free : (begin s).free = s.free := rfl

/-! ### State.latchBit -/

@[simp] theorem latchBit_par (b : Bit) : (State.latchBit b s).par = s.par := rfl
@[simp] theorem latchBit_cfg (b : Bit) : (State.latchBit b s).cfg = s.cfg := rfl
@[simp] theorem latchBit_link (b : Bit) : (State.latchBit b s).link = s.link := rfl
@[simp] theorem latchBit_clk (b : Bit) : (State.latchBit b s).clk = s.clk := rfl
@[simp] theorem latchBit_dioOut (b : Bit) : (State.latchBit b s).dioOut = s.dioOut := rfl
@[simp] theorem latchBit_dioOE (b : Bit) : (State.latchBit b s).dioOE = s.dioOE := rfl
@[simp] theorem latchBit_rst (b : Bit) : (State.latchBit b s).rst = s.rst := rfl
@[simp] theorem latchBit_op (b : Bit) : (State.latchBit b s).op = { s.op with bit := b } := rfl
@[simp] theorem latchBit_seq (b : Bit) : (State.latchBit b s).seq = s.seq := rfl
@[simp] theorem latchBit_busy (b : Bit) : (State.latchBit b s).busy = s.busy := rfl
@[simp] theorem latchBit_res (b : Bit) : (State.latchBit b s).res = s.res := rfl
@[simp] theorem latchBit_sampled (b : Bit) : (State.latchBit b s).sampled = s.sampled := rfl
@[simp] theorem latchBit_trace (b : Bit) : (State.latchBit b s).trace = s.trace := rfl
@[simp] theorem latchBit_rstTrace (b : Bit) : (State.latchBit b s).rstTrace = s.rstTrace := rfl
@[simp] theorem latchBit_port (b : Bit) : (State.latchBit b s).port = s.port := rfl
@[simp] theorem latchBit_answers (b : Bit) : (State.latchBit b s).answers = s.answers := rfl
@[simp] theorem latchBit_free (b : Bit) : (State.latchBit b s).free = s.free := rfl

/-! ### State.latchLevel -/

@[simp] theorem latchLevel_par (b : Bit) : (State.latchLevel b s).par = s.par := rfl
@[simp] theorem latchLevel_cfg (b : Bit) : (State.latchLevel b s).cfg = s.cfg := rfl
@[simp] theorem latchLevel_link (b : Bit) : (State.latchLevel b s).link = s.link := rfl
@[simp] theorem latchLevel_clk (b : Bit) : (State.latchLevel b s).clk = s.clk := rfl
@[simp] theorem latchLevel_dioOut (b : Bit) : (State.latchLevel b s).dioOut = s.dioOut := rfl
@[simp] theorem latchLevel_dioOE (b : Bit) : (State.latchLevel b s).dioOE = s.dioOE := rfl
@[simp] theorem latchLevel_rst (b : Bit) : (State.latchLevel b s).rst = s.rst := rfl
@[simp] theorem latchLevel_op (b : Bit) : (State.latchLevel b s).op = { s.op with level := b } := rfl
@[simp] theorem latchLevel_seq (b : Bit) : (State.latchLevel b s).seq = s.seq := rfl
@[simp] theorem latchLevel_busy (b : Bit) : (State.latchLevel b s).busy = s.busy := rfl
@[simp] theorem latchLevel_res (b : Bit) : (State.latchLevel b s).res = s.res := rfl
@[simp] theorem latchLevel_sampled (b : Bit) : (State.latchLevel b s).sampled = s.sampled := rfl
@[simp] theorem latchLevel_trace (b : Bit) : (State.latchLevel b s).trace = s.trace := rfl
@[simp] theorem latchLevel_rstTrace (b : Bit) : (State.latchLevel b s).rstTrace = s.rstTrace := rfl
@[simp] theorem latchLevel_port (b : Bit) : (State.latchLevel b s).port = s.port := rfl
@[simp] theorem latchLevel_answers (b : Bit) : (State.latchLevel b s).answers = s.answers := rfl
@[simp] theorem latchLevel_free (b : Bit) : (State.latchLevel b s).free = s.free := rfl

/-! ### State.latchFlag -/

@[simp] theorem latchFlag_par (b : Bit) : (State.latchFlag b s).par = s.par := rfl
@[simp] theorem latchFlag_cfg (b : Bit) : (State.latchFlag b s).cfg = s.cfg := rfl
@[simp] theorem latchFlag_link (b : Bit) : (State.latchFlag b s).link = s.link := rfl
@[simp] theorem latchFlag_clk (b : Bit) : (State.latchFlag b s).clk = s.clk := rfl
@[simp] theorem latchFlag_dioOut (b : Bit) : (State.latchFlag b s).dioOut = s.dioOut := rfl
@[simp] theorem latchFlag_dioOE (b : Bit) : (State.latchFlag b s).dioOE = s.dioOE := rfl
@[simp] theorem latchFlag_rst (b : Bit) : (State.latchFlag b s).rst = s.rst := rfl
@[simp] theorem latchFlag_op (b : Bit) : (State.latchFlag b s).op = { s.op with flag := b } := rfl
@[simp] theorem latchFlag_seq (b : Bit) : (State.latchFlag b s).seq = s.seq := rfl
@[simp] theorem latchFlag_busy (b : Bit) : (State.latchFlag b s).busy = s.busy := rfl
@[simp] theorem latchFlag_res (b : Bit) : (State.latchFlag b s).res = s.res := rfl
@[simp] theorem latchFlag_sampled (b : Bit) : (State.latchFlag b s).sampled = s.sampled := rfl
@[simp] theorem latchFlag_trace (b : Bit) : (State.latchFlag b s).trace = s.trace := rfl
@[simp] theorem latchFlag_rstTrace (b : Bit) : (State.latchFlag b s).rstTrace = s.rstTrace := rfl
@[simp] theorem latchFlag_port (b : Bit) : (State.latchFlag b s).port = s.port := rfl
@[simp] theorem latchFlag_answers (b : Bit) : (State.latchFlag b s).answers = s.answers := rfl
@[simp] theorem latchFlag_free (b : Bit) : (State.latchFlag b s).free = s.free := rfl

/-! ### State.latchAddr -/

@[simp] theorem latchAddr_par (a : Addr) : (State.latchAddr a s).par = s.par := rfl
@[simp] theorem latchAddr_cfg (a : Addr) : (State.latchAddr a s).cfg = s.cfg := rfl
@[simp] theorem latchAddr_link (a : Addr) : (State.latchAddr a s).link = s.link := rfl
@[simp] theorem latchAddr_clk (a : Addr) : (State.latchAddr a s).clk = s.clk := rfl
@[simp] theorem latchAddr_dioOut (a : Addr) : (State.latchAddr a s).dioOut = s.dioOut := rfl
@[simp] theorem latchAddr_dioOE (a : Addr) : (State.latchAddr a s).dioOE = s.dioOE := rfl
@[simp] theorem latchAddr_rst (a : Addr) : (State.latchAddr a s).rst = s.rst := rfl
@[simp] theorem latchAddr_op (a : Addr) : (State.latchAddr a s).op = { s.op with addr := a } := rfl
@[simp] theorem latchAddr_seq (a : Addr) : (State.latchAddr a s).seq = s.seq := rfl
@[simp] theorem latchAddr_busy (a : Addr) : (State.latchAddr a s).busy = s.busy := rfl
@[simp] theorem latchAddr_res (a : Addr) : (State.latchAddr a s).res = s.res := rfl
@[simp] theorem latchAddr_sampled (a : Addr) : (State.latchAddr a s).sampled = s.sampled := rfl
@[simp] theorem latchAddr_trace (a : Addr) : (State.latchAddr a s).trace = s.trace := rfl
@[simp] theorem latchAddr_rstTrace (a : Addr) : (State.latchAddr a s).rstTrace = s.rstTrace := rfl
@[simp] theorem latchAddr_port (a : Addr) : (State.latchAddr a s).port = s.port := rfl
@[simp] theorem latchAddr_answers (a : Addr) : (State.latchAddr a s).answers = s.answers := rfl
@[simp] theorem latchAddr_free (a : Addr) : (State.latchAddr a s).free = s.free := rfl

/-! ### State.latchWrite -/

@[simp] theorem latchWrite_par (a : Addr) (d : Word32) : (State.latchWrite a d s).par = s.par := rfl
@[simp] theorem latchWrite_cfg (a : Addr) (d : Word32) : (State.latchWrite a d s).cfg = s.cfg := rfl
@[simp] theorem latchWrite_link (a : Addr) (d : Word32) : (State.latchWrite a d s).link = s.link := rfl
@[simp] theorem latchWrite_clk (a : Addr) (d : Word32) : (State.latchWrite a d s).clk = s.clk := rfl
@[simp] theorem latchWrite_dioOut (a : Addr) (d : Word32) : (State.latchWrite a d s).dioOut = s.dioOut := rfl
@[simp] theorem latchWrite_dioOE (a : Addr) (d : Word32) : (State.latchWrite a d s).dioOE = s.dioOE := rfl
@[simp] theorem latchWrite_rst (a : Addr) (d : Word32) : (State.latchWrite a d s).rst = s.rst := rfl
@[simp] theorem latchWrite_op (a : Addr) (d : Word32) : (State.latchWrite a d s).op = { s.op with addr := a, wdata := d } := rfl
@[simp] theorem latchWrite_seq (a : Addr) (d : Word32) : (State.latchWrite a d s).seq = s.seq := rfl
@[simp] theorem latchWrite_busy (a : Addr) (d : Word32) : (State.latchWrite a d s).busy = s.busy := rfl
@[simp] theorem latchWrite_res (a : Addr) (d : Word32) : (State.latchWrite a d s).res = s.res := rfl
@[simp] theorem latchWrite_sampled (a : Addr) (d : Word32) : (State.latchWrite a d s).sampled = s.sampled := rfl
@[simp] theorem latchWrite_trace (a : Addr) (d : Word32) : (State.latchWrite a d s).trace = s.trace := rfl
@[simp] theorem latchWrite_rstTrace (a : Addr) (d : Word32) : (State.latchWrite a d s).rstTrace = s.rstTrace := rfl
@[simp] theorem latchWrite_port (a : Addr) (d : Word32) : (State.latchWrite a d s).port = s.port := rfl
@[simp] theorem latchWrite_answers (a : Addr) (d : Word32) : (State.latchWrite a d s).answers = s.answers := rfl
@[simp] theorem latchWrite_free (a : Addr) (d : Word32) : (State.latchWrite a d s).free = s.free := rfl

/-! ### State.latchTransfer -/

@[simp] theorem latchTransfer_par (a : Addr) (p r : Bit) (d : Word32) : (State.latchTransfer a p r d s).par = s.par := rfl
@[simp] theorem latchTransfer_cfg (a : Addr) (p r : Bit) (d : Word32) : (State.latchTransfer a p r d s).cfg = s.cfg := rfl
@[simp] theorem latchTransfer_link (a : Addr) (p r : Bit) (d : Word32) : (State.latchTransfer a p r d s).link = s.link := rfl
@[simp] theorem latchTransfer_clk (a : Addr) (p r : Bit) (d : Word32) : (State.latchTransfer a p r d s).clk = s.clk := rfl
@[simp] theorem latchTransfer_dioOut (a : Addr) (p r : Bit) (d : Word32) : (State.latchTransfer a p r d s).dioOut = s.dioOut := rfl
@[simp] theorem latchTransfer_dioOE (a : Addr) (p r : Bit) (d : Word32) : (State.latchTransfer a p r d s).dioOE = s.dioOE := rfl
@[simp] theorem latchTransfer_rst (a : Addr) (p r : Bit) (d : Word32) : (State.latchTransfer a p r d s).rst = s.rst := rfl
@[simp] theorem latchTransfer_op (a : Addr) (p r : Bit) (d : Word32) : (State.latchTransfer a p r d s).op = { s.op with addr := a, isAP := p, isRead := r, wdata := d } := rfl
@[simp] theorem latchTransfer_seq (a : Addr) (p r : Bit) (d : Word32) : (State.latchTransfer a p r d s).seq = s.seq := rfl
@[simp] theorem latchTransfer_busy (a : Addr) (p r : Bit) (d : Word32) : (State.latchTransfer a p r d s).busy = s.busy := rfl
@[simp] theorem latchTransfer_res (a : Addr) (p r : Bit) (d : Word32) : (State.latchTransfer a p r d s).res = s.res := rfl
@[simp] theorem latchTransfer_sampled (a : Addr) (p r : Bit) (d : Word32) : (State.latchTransfer a p r d s).sampled = s.sampled := rfl
@[simp] theorem latchTransfer_trace (a : Addr) (p r : Bit) (d : Word32) : (State.latchTransfer a p r d s).trace = s.trace := rfl
@[simp] theorem latchTransfer_rstTrace (a : Addr) (p r : Bit) (d : Word32) : (State.latchTransfer a p r d s).rstTrace = s.rstTrace := rfl
@[simp] theorem latchTransfer_port (a : Addr) (p r : Bit) (d : Word32) : (State.latchTransfer a p r d s).port = s.port := rfl
@[simp] theorem latchTransfer_answers (a : Addr) (p r : Bit) (d : Word32) : (State.latchTransfer a p r d s).answers = s.answers := rfl
@[simp] theorem latchTransfer_free (a : Addr) (p r : Bit) (d : Word32) : (State.latchTransfer a p r d s).free = s.free := rfl

/-! ### State.accept -/

@[simp] theorem accept_par (w : PortWord) (rest : List PortWord) : (State.accept w rest s).par = s.par := rfl
@[simp] theorem accept_cfg (w : PortWord) (rest : List PortWord) : (State.accept w rest s).cfg = s.cfg := rfl
@[simp] theorem accept_link (w : PortWord) (rest : List PortWord) : (State.accept w rest s).link = s.link := rfl
@[simp] theorem accept_clk (w : PortWord) (rest : List PortWord) : (State.accept w rest s).clk = s.clk := rfl
@[simp] theorem accept_dioOut (w : PortWord) (rest : List PortWord) : (State.accept w rest s).dioOut = s.dioOut := rfl
@[simp] theorem accept_dioOE (w : PortWord) (rest : List PortWord) : (State.accept w rest s).dioOE = s.dioOE := rfl
@[simp] theorem accept_rst (w : PortWord) (rest : List PortWord) : (State.accept w rest s).rst = s.rst := rfl
@[simp] theorem accept_op (w : PortWord) (rest : List PortWord) : (State.accept w rest s).op = { s.op with config := w.config.getD s.op.config } := rfl
@[simp] theorem accept_seq (w : PortWord) (rest : List PortWord) : (State.accept w rest s).seq = s.seq := rfl
@[simp] theorem accept_busy (w : PortWord) (rest : List PortWord) : (State.accept w rest s).busy = s.busy := rfl
@[simp] theorem accept_res (w : PortWord) (rest : List PortWord) : (State.accept w rest s).res = s.res := rfl
@[simp] theorem accept_sampled (w : PortWord) (rest : List PortWord) : (State.accept w rest s).sampled = s.sampled := rfl
@[simp] theorem accept_trace (w : PortWord) (rest : List PortWord) : (State.accept w rest s).trace = s.trace := rfl
@[simp] theorem accept_rstTrace (w : PortWord) (rest : List PortWord) : (State.accept w rest s).rstTrace = s.rstTrace := rfl
@[simp] theorem accept_port (w : PortWord) (rest : List PortWord) : (State.accept w rest s).port = rest := rfl
@[simp] theorem accept_answers (w : PortWord) (rest : List PortWord) : (State.accept w rest s).answers = s.answers := rfl
@[simp] theorem accept_free (w : PortWord) (rest : List PortWord) : (State.accept w rest s).free = s.free := rfl

/-! ### setConnectedFlag -/

@[simp] theorem setConnectedFlag_par (f : Bit) : (setConnectedFlag f s).par = s.par := rfl
@[simp] theorem setConnectedFlag_cfg (f : Bit) : (setConnectedFlag f s).cfg = s.cfg := rfl
@[simp] theorem setConnectedFlag_link (f : Bit) : (setConnectedFlag f s).link = { s.link with connected := f } := rfl
@[simp] theorem setConnectedFlag_clk (f : Bit) : (setConnectedFlag f s).clk = s.clk := rfl
@[simp] theorem setConnectedFlag_dioOut (f : Bit) : (setConnectedFlag f s).dioOut = s.dioOut := rfl
@[simp] theorem setConnectedFlag_dioOE (f : Bit) : (setConnectedFlag f s).dioOE = s.dioOE := rfl
@[simp] theorem setConnectedFlag_rst (f : Bit) : (setConnectedFlag f s).rst = s.rst := rfl
@[simp] theorem setConnectedFlag_op (f : Bit) : (setConnectedFlag f s).op = s.op := rfl
@[simp] theorem setConnectedFlag_seq (f : Bit) : (setConnectedFlag f s).seq = s.seq := rfl
@[simp] theorem setConnectedFlag_busy (f : Bit) : (setConnectedFlag f s).busy = s.busy := rfl
@[simp] theorem setConnectedFlag_res (f : Bit) : (setConnectedFlag f s).res = s.res := rfl
@[simp] theorem setConnectedFlag_sampled (f : Bit) : (setConnectedFlag f s).sampled = s.sampled := rfl
@[simp] theorem setConnectedFlag_trace (f : Bit) : (setConnectedFlag f s).trace = s.trace := rfl
@[simp] theorem setConnectedFlag_rstTrace (f : Bit) : (setConnectedFlag f s).rstTrace = s.rstTrace := rfl
@[simp] theorem setConnectedFlag_port (f : Bit) : (setConnectedFlag f s).port = s.port := rfl
@[simp] theorem setConnectedFlag_answers (f : Bit) : (setConnectedFlag f s).answers = s.answers := rfl
@[simp] theorem setConnectedFlag_free (f : Bit) : (setConnectedFlag f s).free = s.free := rfl

/-! ### driveReset -/

@[simp] theorem driveReset_par (b : Bit) : (driveReset b s).par = s.par := rfl
@[simp] theorem driveReset_cfg (b : Bit) : (driveReset b s).cfg = s.cfg := rfl
@[simp] theorem driveReset_link (b : Bit) : (driveReset b s).link = s.link := rfl
@[simp] theorem driveReset_clk (b : Bit) : (driveReset b s).clk = s.clk := rfl
@[simp] theorem driveReset_dioOut (b : Bit) : (driveReset b s).dioOut = s.dioOut := rfl
@[simp] theorem driveReset_dioOE (b : Bit) : (driveReset b s).dioOE = s.dioOE := rfl
@[simp] theorem driveReset_rst (b : Bit) : (driveReset b s).rst = .driven b := rfl
@[simp] theorem driveReset_op (b : Bit) : (driveReset b s).op = s.op := rfl
@[simp] theorem driveReset_seq (b : Bit) : (driveReset b s).seq = s.seq := rfl
@[simp] theorem driveReset_busy (b : Bit) : (driveReset b s).busy = s.busy := rfl
@[simp] theorem driveReset_res (b : Bit) : (driveReset b s).res = s.res := rfl
@[simp] theorem driveReset_sampled (b : Bit) : (driveReset b s).sampled = s.sampled := rfl
@[simp] theorem driveReset_trace (b : Bit) : (driveReset b s).trace = s.trace := rfl
@[simp] theorem driveReset_rstTrace (b : Bit) : (driveReset b s).rstTrace = s.rstTrace ++ [b] := rfl
@[simp] theorem driveReset_port (b : Bit) : (driveReset b s).port = s.port := rfl
@[simp] theorem driveReset_answers (b : Bit) : (driveReset b s).answers = s.answers := rfl
@[simp] theorem driveReset_free (b : Bit) : (driveReset b s).free = s.free := rfl

/-! ### State.wires -/

@[simp] theorem wires_par (cs : List Cycle) (out : Bit) (dr : Bool) : (State.wires s cs out dr).par = s.par := rfl
@[simp] theorem wires_cfg (cs : List Cycle) (out : Bit) (dr : Bool) : (State.wires s cs out dr).cfg = s.cfg := rfl
@[simp] theorem wires_link (cs : List Cycle) (out : Bit) (dr : Bool) : (State.wires s cs out dr).link = { s.link with driving := dr } := rfl
@[simp] theorem wires_clk (cs : List Cycle) (out : Bit) (dr : Bool) : (State.wires s cs out dr).clk = .driven true := rfl
@[simp] theorem wires_dioOut (cs : List Cycle) (out : Bit) (dr : Bool) : (State.wires s cs out dr).dioOut = out := rfl
@[simp] theorem wires_dioOE (cs : List Cycle) (out : Bit) (dr : Bool) : (State.wires s cs out dr).dioOE = dr := rfl
@[simp] theorem wires_rst (cs : List Cycle) (out : Bit) (dr : Bool) : (State.wires s cs out dr).rst = s.rst := rfl
@[simp] theorem wires_op (cs : List Cycle) (out : Bit) (dr : Bool) : (State.wires s cs out dr).op = s.op := rfl
@[simp] theorem wires_seq (cs : List Cycle) (out : Bit) (dr : Bool) : (State.wires s cs out dr).seq = s.seq := rfl
@[simp] theorem wires_busy (cs : List Cycle) (out : Bit) (dr : Bool) : (State.wires s cs out dr).busy = s.busy := rfl
@[simp] theorem wires_res (cs : List Cycle) (out : Bit) (dr : Bool) : (State.wires s cs out dr).res = s.res := rfl
@[simp] theorem wires_sampled (cs : List Cycle) (out : Bit) (dr : Bool) : (State.wires s cs out dr).sampled = none := rfl
@[simp] theorem wires_trace (cs : List Cycle) (out : Bit) (dr : Bool) : (State.wires s cs out dr).trace = s.trace ++ cs := rfl
@[simp] theorem wires_rstTrace (cs : List Cycle) (out : Bit) (dr : Bool) : (State.wires s cs out dr).rstTrace = s.rstTrace := rfl
@[simp] theorem wires_port (cs : List Cycle) (out : Bit) (dr : Bool) : (State.wires s cs out dr).port = s.port := rfl
@[simp] theorem wires_answers (cs : List Cycle) (out : Bit) (dr : Bool) : (State.wires s cs out dr).answers = s.answers := rfl
@[simp] theorem wires_free (cs : List Cycle) (out : Bit) (dr : Bool) : (State.wires s cs out dr).free = s.free := rfl

/-! ### State.leaving -/

@[simp] theorem leaving_par (rest : List Bit) : (State.leaving s rest).par = s.par := rfl
@[simp] theorem leaving_cfg (rest : List Bit) : (State.leaving s rest).cfg = s.cfg := rfl
@[simp] theorem leaving_link (rest : List Bit) : (State.leaving s rest).link = s.link := rfl
@[simp] theorem leaving_clk (rest : List Bit) : (State.leaving s rest).clk = s.clk := rfl
@[simp] theorem leaving_dioOut (rest : List Bit) : (State.leaving s rest).dioOut = s.dioOut := rfl
@[simp] theorem leaving_dioOE (rest : List Bit) : (State.leaving s rest).dioOE = s.dioOE := rfl
@[simp] theorem leaving_rst (rest : List Bit) : (State.leaving s rest).rst = s.rst := rfl
@[simp] theorem leaving_op (rest : List Bit) : (State.leaving s rest).op = s.op := rfl
@[simp] theorem leaving_seq (rest : List Bit) : (State.leaving s rest).seq = s.seq := rfl
@[simp] theorem leaving_busy (rest : List Bit) : (State.leaving s rest).busy = s.busy := rfl
@[simp] theorem leaving_res (rest : List Bit) : (State.leaving s rest).res = s.res := rfl
@[simp] theorem leaving_sampled (rest : List Bit) : (State.leaving s rest).sampled = s.sampled := rfl
@[simp] theorem leaving_trace (rest : List Bit) : (State.leaving s rest).trace = s.trace := rfl
@[simp] theorem leaving_rstTrace (rest : List Bit) : (State.leaving s rest).rstTrace = s.rstTrace := rfl
@[simp] theorem leaving_port (rest : List Bit) : (State.leaving s rest).port = s.port := rfl
@[simp] theorem leaving_answers (rest : List Bit) : (State.leaving s rest).answers = rest := rfl
@[simp] theorem leaving_free (rest : List Bit) : (State.leaving s rest).free = s.free := rfl

/-! ### wait, finish, reply, initialise -/

@[simp] theorem wait_eq (n : Nat) : State.wait n s = s := rfl
@[simp] theorem finish_par (r : CmdResult) : (finish r s).par = s.par := rfl
@[simp] theorem finish_cfg (r : CmdResult) : (finish r s).cfg = s.cfg := rfl
@[simp] theorem finish_link (r : CmdResult) : (finish r s).link = s.link := rfl
@[simp] theorem finish_clk (r : CmdResult) : (finish r s).clk = s.clk := rfl
@[simp] theorem finish_dioOut (r : CmdResult) : (finish r s).dioOut = s.dioOut := rfl
@[simp] theorem finish_dioOE (r : CmdResult) : (finish r s).dioOE = s.dioOE := rfl
@[simp] theorem finish_rst (r : CmdResult) : (finish r s).rst = s.rst := rfl
@[simp] theorem finish_op (r : CmdResult) : (finish r s).op = s.op := rfl
@[simp] theorem finish_seq (r : CmdResult) : (finish r s).seq = Sequencer.idle := rfl
@[simp] theorem finish_busy (r : CmdResult) : (finish r s).busy = false := rfl
@[simp] theorem finish_sampled (r : CmdResult) : (finish r s).sampled = s.sampled := rfl
@[simp] theorem finish_trace (r : CmdResult) : (finish r s).trace = s.trace := rfl
@[simp] theorem finish_rstTrace (r : CmdResult) : (finish r s).rstTrace = s.rstTrace := rfl
@[simp] theorem finish_port (r : CmdResult) : (finish r s).port = s.port := rfl
@[simp] theorem finish_answers (r : CmdResult) : (finish r s).answers = s.answers := rfl
@[simp] theorem finish_free (r : CmdResult) : (finish r s).free = s.free + 1 := rfl
@[simp] theorem finish_res_status (r : CmdResult) : (finish r s).res.status = r.status := rfl
@[simp] theorem finish_res_info (r : CmdResult) : (finish r s).res.info = r.info := rfl
@[simp] theorem finish_res_ack (r : CmdResult) : (finish r s).res.ack = finalAck r s.res.ack := rfl
@[simp] theorem finish_res_parityError (r : CmdResult) : (finish r s).res.parityError = finalParityError r s.res.parityError := rfl
@[simp] theorem finish_res_rdata (r : CmdResult) : (finish r s).res.rdata = r.rdata?.getD (Config.drawWord s.free) := rfl
@[simp] theorem finish_res_bit (r : CmdResult) : (finish r s).res.bit = r.bit?.getD (Config.drawBit s.free) := rfl
@[simp] theorem finish_res_attempts (r : CmdResult) : (finish r s).res.attempts = s.res.attempts := rfl
@[simp] theorem reply_par (r : CmdResult) (a : Option Ack) (pe : Bool) (n : Nat) : (State.reply s r a pe n).par = s.par := rfl
@[simp] theorem reply_cfg (r : CmdResult) (a : Option Ack) (pe : Bool) (n : Nat) : (State.reply s r a pe n).cfg = s.cfg := rfl
@[simp] theorem reply_link (r : CmdResult) (a : Option Ack) (pe : Bool) (n : Nat) : (State.reply s r a pe n).link = s.link := rfl
@[simp] theorem reply_clk (r : CmdResult) (a : Option Ack) (pe : Bool) (n : Nat) : (State.reply s r a pe n).clk = s.clk := rfl
@[simp] theorem reply_dioOut (r : CmdResult) (a : Option Ack) (pe : Bool) (n : Nat) : (State.reply s r a pe n).dioOut = s.dioOut := rfl
@[simp] theorem reply_dioOE (r : CmdResult) (a : Option Ack) (pe : Bool) (n : Nat) : (State.reply s r a pe n).dioOE = s.dioOE := rfl
@[simp] theorem reply_rst (r : CmdResult) (a : Option Ack) (pe : Bool) (n : Nat) : (State.reply s r a pe n).rst = s.rst := rfl
@[simp] theorem reply_op (r : CmdResult) (a : Option Ack) (pe : Bool) (n : Nat) : (State.reply s r a pe n).op = s.op := rfl
@[simp] theorem reply_seq (r : CmdResult) (a : Option Ack) (pe : Bool) (n : Nat) : (State.reply s r a pe n).seq = Sequencer.idle := rfl
@[simp] theorem reply_busy (r : CmdResult) (a : Option Ack) (pe : Bool) (n : Nat) : (State.reply s r a pe n).busy = false := rfl
@[simp] theorem reply_sampled (r : CmdResult) (a : Option Ack) (pe : Bool) (n : Nat) : (State.reply s r a pe n).sampled = s.sampled := rfl
@[simp] theorem reply_trace (r : CmdResult) (a : Option Ack) (pe : Bool) (n : Nat) : (State.reply s r a pe n).trace = s.trace := rfl
@[simp] theorem reply_rstTrace (r : CmdResult) (a : Option Ack) (pe : Bool) (n : Nat) : (State.reply s r a pe n).rstTrace = s.rstTrace := rfl
@[simp] theorem reply_port (r : CmdResult) (a : Option Ack) (pe : Bool) (n : Nat) : (State.reply s r a pe n).port = s.port := rfl
@[simp] theorem reply_answers (r : CmdResult) (a : Option Ack) (pe : Bool) (n : Nat) : (State.reply s r a pe n).answers = s.answers := rfl
@[simp] theorem reply_free (r : CmdResult) (a : Option Ack) (pe : Bool) (n : Nat) : (State.reply s r a pe n).free = s.free + 1 := rfl
@[simp] theorem reply_res_status (r : CmdResult) (a : Option Ack) (pe : Bool) (n : Nat) : (State.reply s r a pe n).res.status = r.status := rfl
@[simp] theorem reply_res_info (r : CmdResult) (a : Option Ack) (pe : Bool) (n : Nat) : (State.reply s r a pe n).res.info = r.info := rfl
@[simp] theorem reply_res_ack (r : CmdResult) (a : Option Ack) (pe : Bool) (n : Nat) : (State.reply s r a pe n).res.ack = a := rfl
@[simp] theorem reply_res_parityError (r : CmdResult) (a : Option Ack) (pe : Bool) (n : Nat) : (State.reply s r a pe n).res.parityError = pe := rfl
@[simp] theorem reply_res_rdata (r : CmdResult) (a : Option Ack) (pe : Bool) (n : Nat) : (State.reply s r a pe n).res.rdata = r.rdata?.getD (Config.drawWord s.free) := rfl
@[simp] theorem reply_res_bit (r : CmdResult) (a : Option Ack) (pe : Bool) (n : Nat) : (State.reply s r a pe n).res.bit = r.bit?.getD (Config.drawBit s.free) := rfl
@[simp] theorem reply_res_attempts (r : CmdResult) (a : Option Ack) (pe : Bool) (n : Nat) : (State.reply s r a pe n).res.attempts = n := rfl
@[simp] theorem initialise_par : (initialise s).par = s.par := rfl
@[simp] theorem initialise_cfg : (initialise s).cfg = s.op.config := rfl
@[simp] theorem initialise_link : (initialise s).link = { initialized := true, connected := false, driving := true } := rfl
@[simp] theorem initialise_clk : (initialise s).clk = .driven true := rfl
@[simp] theorem initialise_dioOut : (initialise s).dioOut = true := rfl
@[simp] theorem initialise_dioOE : (initialise s).dioOE = true := rfl
@[simp] theorem initialise_rst : (initialise s).rst = if s.op.config.pinRst.isSome then .driven true else .absent := rfl
@[simp] theorem initialise_op : (initialise s).op = s.op := rfl
@[simp] theorem initialise_seq : (initialise s).seq = s.seq := rfl
@[simp] theorem initialise_busy : (initialise s).busy = s.busy := rfl
@[simp] theorem initialise_res : (initialise s).res = s.res := rfl
@[simp] theorem initialise_sampled : (initialise s).sampled = none := rfl
@[simp] theorem initialise_trace : (initialise s).trace = s.trace := rfl
@[simp] theorem initialise_rstTrace : (initialise s).rstTrace = if s.op.config.pinRst.isSome then s.rstTrace ++ [true] else s.rstTrace := rfl
@[simp] theorem initialise_port : (initialise s).port = s.port := rfl
@[simp] theorem initialise_answers : (initialise s).answers = s.answers := rfl
@[simp] theorem initialise_free : (initialise s).free = s.free := rfl

end Sys2Proof.Machine
end

