-- ==== Sys2Proof/Laws/Ops.lean ====
section
/-! SUPPORT. One equation per shared operation that says everything it does: the primitives, the multi-bit helpers, the two
transitions of the turnaround machine, and the entry sequence. -/

namespace Sys2Proof.Machine

/-- The state with another sequencer. -/
def State.withSeq (s : State) (q : Sequencer) : State := { s with seq := q }

theorem enter_eq (p : Phase) (s : State) : s.enter p = s.withSeq { s.seq with phase := p, bit := 0 } := rfl
theorem atBit_eq (i : Nat) (s : State) : s.atBit i = s.withSeq { s.seq with bit := i } := rfl
theorem setAttempt_eq (n : Nat) (s : State) : s.setAttempt n = s.withSeq { s.seq with attempt := n } := rfl

@[simp] theorem withSeq_withSeq (s : State) (p q : Sequencer) : (s.withSeq p).withSeq q = s.withSeq q := rfl
@[simp] theorem withSeq_seq (s : State) (q : Sequencer) : (s.withSeq q).seq = q := rfl
@[simp] theorem withSeq_self (s : State) : s.withSeq s.seq = s := rfl
@[simp] theorem withSeq_par (s : State) (q : Sequencer) : (s.withSeq q).par = s.par := rfl
@[simp] theorem withSeq_cfg (s : State) (q : Sequencer) : (s.withSeq q).cfg = s.cfg := rfl
@[simp] theorem withSeq_link (s : State) (q : Sequencer) : (s.withSeq q).link = s.link := rfl
@[simp] theorem withSeq_dioOE (s : State) (q : Sequencer) : (s.withSeq q).dioOE = s.dioOE := rfl
@[simp] theorem withSeq_dioOut (s : State) (q : Sequencer) : (s.withSeq q).dioOut = s.dioOut := rfl
@[simp] theorem withSeq_sampled (s : State) (q : Sequencer) : (s.withSeq q).sampled = s.sampled := rfl
@[simp] theorem withSeq_trace (s : State) (q : Sequencer) : (s.withSeq q).trace = s.trace := rfl
@[simp] theorem withSeq_answers (s : State) (q : Sequencer) : (s.withSeq q).answers = s.answers := rfl
@[simp] theorem withSeq_res (s : State) (q : Sequencer) : (s.withSeq q).res = s.res := rfl
@[simp] theorem withSeq_op (s : State) (q : Sequencer) : (s.withSeq q).op = s.op := rfl

@[simp] theorem finish_withSeq (r : CmdResult) (s : State) (q : Sequencer) : finish r (s.withSeq q) = finish r s := rfl

theorem lead_withSeq (s : State) (q : Sequencer) : lead (s.withSeq q) = lead s := rfl

/-! ### wires -/

@[simp] theorem wires_wires (s : State) (a b : List Cycle) (o o' : Bit) (d d' : Bool) :
    (s.wires a o d).wires b o' d' = s.wires (a ++ b) o' d' := by simp [State.wires]

@[simp] theorem withSeq_wires (s : State) (q : Sequencer) (a : List Cycle) (o : Bit) (d : Bool) :
    (s.withSeq q).wires a o d = (s.wires a o d).withSeq q := rfl

@[simp] theorem leaving_wires (s : State) (r : List Bit) (a : List Cycle) (o : Bit) (d : Bool) :
    (s.wires a o d).leaving r = (s.leaving r).wires a o d := rfl

@[simp] theorem leaving_withSeq (s : State) (q : Sequencer) (r : List Bit) : (s.withSeq q).leaving r = (s.leaving r).withSeq q := rfl

@[simp] theorem leaving_leaving (s : State) (a b : List Bit) : (s.leaving a).leaving b = s.leaving b := rfl

@[simp] theorem leaving_self (s : State) : s.leaving s.answers = s := rfl

/-- A driven cycle (R104, R103). -/
theorem pulse_drive (b : Bit) (s : State) : pulse (drive b s) = s.wires [Cycle.driven b] b true := rfl

/-- A pulse with the line released (R103). -/
theorem pulse_released (s : State) (h : s.dioOE = false) (hd : s.link.driving = false) :
    pulse s = s.wires (turnaround s.sampled 1) s.dioOut false := by
  cases s with | mk par cfg link clk dioOut dioOE rst op seq busy res sampled trace rstTrace port answers free =>
  cases link
  simp only at h hd
  subst h hd
  cases sampled <;> rfl

/-- A pulse that ends a sampled cycle (R106, R103). -/
theorem pulse_sample (s : State) (b : Bit) (rest : List Bit) (h : s.dioOE = false) (hd : s.link.driving = false)
    (ha : s.answers = b :: rest) :
    sample s = (b, { s with answers := rest, sampled := some b }) ∧
      pulse (sample s).2 = (s.leaving rest).wires [Cycle.sampled b] s.dioOut false := by
  cases s with | mk par cfg link clk dioOut dioOE rst op seq busy res sampled trace rstTrace port answers free =>
  cases link
  simp only at h hd ha
  subst h hd ha
  exact ⟨rfl, rfl⟩

/-! ### Multi-bit helpers -/

/-- `writeBits` on at least one bit (R110). -/
theorem sendBits_eq (i : Nat) (bs : List Bit) (h : bs ≠ []) (s : State) :
    sendBits i bs s = (s.wires (drivenCycles bs) (bs.getLast h) true).withSeq { s.seq with bit := i + bs.length - 1 } := by
  induction bs generalizing i s with
  | nil => exact absurd rfl h
  | cons b bs ih =>
    cases bs with
    | nil => simp [sendBits, pulse_drive, atBit_eq]
    | cons c cs =>
      rw [sendBits, ih (i + 1) (by simp)]
      simp only [pulse_drive, atBit_eq, withSeq_wires, wires_wires, withSeq_withSeq, withSeq_seq, List.length_cons,
        List.getLast_cons_cons]
      congr 2
      congr 1; omega

/-- `writeBits` of a value of positive width (R110). -/
theorem writeBits_eq {w : Nat} (v : BitVec w) (hw : 0 < w) (s : State) :
    writeBits v s = (s.wires (drivenCycles (wireBits v)) (v.getLsbD (w - 1)) true).withSeq { s.seq with bit := w - 1 } := by
  rw [writeBits, sendBits_eq 0 _ (wireBits_ne_nil v hw), wireBits_getLast]
  simp

/-- `cycles` (R112): nothing at all for `n = 0`. -/
theorem cycles_eq (b : Bit) (n : Nat) (s : State) :
    cycles b n s = if n = 0 then s
      else (s.wires (List.replicate n (Cycle.driven b)) b true).withSeq { s.seq with bit := n - 1 } := by
  cases n with
  | zero => rfl
  | succ n =>
    rw [cycles, sendBits_eq 0 _ (by simp), List.getLast_replicate]
    simp [drivenCycles]

/-- `n` pulses with the line released, counted from `i` (R141, R142). -/
theorem pulses_released (i n : Nat) (s : State) (h : s.dioOE = false) (hd : s.link.driving = false) :
    pulses i n s = if n = 0 then s
      else (s.wires (turnaround s.sampled n) s.dioOut false).withSeq { s.seq with bit := i + n - 1 } := by
  induction n generalizing i s with
  | zero => rfl
  | succ n ih =>
    rw [pulses, pulse_released (s.atBit i) h hd, ih (i + 1) _ rfl rfl]
    cases n with
    | zero => simp [atBit_eq]
    | succ n =>
      rw [show i + 1 + (n + 1) - 1 = i + (n + 1 + 1) - 1 by omega]
      simp [atBit_eq, turnaround, List.replicate_succ]

/-- `readBits` on at least one bit, the target's answers being `bs` and then `rest` (R111). -/
theorem receiveBits_eq (i : Nat) (bs rest : List Bit) (hb : bs ≠ []) (s : State) (h : s.dioOE = false)
    (hd : s.link.driving = false) (ha : s.answers = bs ++ rest) :
    receiveBits i bs.length s =
      (bs, (((s.leaving rest).wires (sampledCycles bs) s.dioOut false).withSeq { s.seq with bit := i + bs.length - 1 })) := by
  induction bs generalizing i s with
  | nil => exact absurd rfl hb
  | cons b bs ih =>
    have hp := pulse_sample (s.atBit i) b (bs ++ rest) h hd ha
    rw [List.length_cons, receiveBits]
    simp only [hp.1]
    have hp2 := hp.2
    rw [hp.1] at hp2
    simp only at hp2
    rw [hp2]
    cases bs with
    | nil => simp [receiveBits, atBit_eq]
    | cons c cs =>
      rw [ih (i + 1) (by simp) _ rfl rfl rfl]
      simp only [atBit_eq, leaving_withSeq, withSeq_wires, wires_wires, leaving_wires, leaving_leaving, withSeq_withSeq,
        withSeq_seq, List.length_cons, wires_dioOut, withSeq_dioOut]
      refine Prod.ext rfl ?_
      simp only [sampledCycles, List.map_cons, List.singleton_append]
      congr 2
      show i + 1 + (cs.length + 1) - 1 = i + (cs.length + 1 + 1) - 1
      omega

/-- `readBits(n)` of a value of positive width, the target answering its bits (R111). -/
theorem readBits_eq {w : Nat} (v : BitVec w) (hw : 0 < w) (rest : List Bit) (s : State) (h : s.dioOE = false)
    (hd : s.link.driving = false) (ha : s.answers = wireBits v ++ rest) :
    readBits w s =
      (v, (((s.leaving rest).wires (sampledCycles (wireBits v)) s.dioOut false).withSeq { s.seq with bit := w - 1 })) := by
  have e := receiveBits_eq 0 (wireBits v) rest (wireBits_ne_nil v hw) s h hd ha
  simp only [wireBits_length] at e
  simp [readBits, e]

/-! ### The turnaround machine -/

/-- `ensureDriving` followed by bits on the wire (R141): the turnaround owed, if any, and then the bits. -/
theorem sendBits_ensureDriving (i : Nat) (bs : List Bit) (hb : bs ≠ []) (s : State) (q : Sequencer)
    (h : s.link.driving = s.dioOE) :
    sendBits i bs ((ensureDriving s).withSeq q) =
      (s.wires (lead s ++ drivenCycles bs) (bs.getLast hb) true).withSeq { q with bit := i + bs.length - 1 } := by
  rw [sendBits_eq i bs hb]
  unfold ensureDriving lead
  cases hd : s.link.driving with
  | true => simp
  | false =>
    have hoe : s.dioOE = false := by rw [← h, hd]
    simp only [Bool.false_eq_true, ↓reduceIte, pulses_released _ _ s hoe hd]
    cases hn : s.par.trn with
    | zero => simp [turnaround]; rfl
    | succ n => simp [State.wires, State.withSeq, drive]

/-- The state after `ensureDriving` (R141). -/
theorem ensureDriving_eq (s : State) (h : s.link.driving = s.dioOE) :
    ensureDriving s = if s.link.driving then s
      else if s.par.trn = 0 then drive s.dioOut s
      else (s.wires (lead s) s.dioOut true).withSeq { s.seq with bit := s.par.trn - 1 } := by
  unfold ensureDriving lead
  cases hd : s.link.driving with
  | true => simp
  | false =>
    have hoe : s.dioOE = false := by rw [← h, hd]
    simp only [Bool.false_eq_true, ↓reduceIte, pulses_released _ _ s hoe hd, Nat.zero_add]
    split <;> rfl

/-- `turnToTarget` with the line driven and no sample outstanding: the turnaround of a frame (R142). -/
theorem turnToTarget_driving (s : State) (hd : s.link.driving = true) :
    turnToTarget s = if s.par.trn = 0 then release s
      else (s.wires (turnaround s.sampled s.par.trn) s.dioOut false).withSeq { s.seq with bit := s.par.trn - 1 } := by
  unfold turnToTarget
  rw [hd, if_pos rfl, pulses_released 0 s.par.trn (release s) rfl rfl, Nat.zero_add]
  split <;> rfl

/-- `turnToTarget` with the line released does nothing (R142). -/
theorem turnToTarget_released (s : State) (hd : s.link.driving = false) : turnToTarget s = s := by
  simp [turnToTarget, hd]

/-! ### Entry sequence (R109) -/

theorem runCommand_notInitialised (ok : Bool) (body : State → CmdResult × State) (s : State)
    (h : s.link.initialized = false) :
    runCommand ok body s = s.reply (.err .invalidState none) none false 0 := by
  simp [runCommand, h]; rfl

theorem runCommand_badArgument (body : State → CmdResult × State) (s : State) (h : s.link.initialized = true) :
    runCommand false body s = s.reply (.err .invalidArgument none) none false 0 := by
  simp [runCommand, h]; rfl

theorem runCommand_runs (body : State → CmdResult × State) (s : State) (h : s.link.initialized = true) :
    runCommand true body s = finish (body (begin s)).1 (body (begin s)).2 := by
  simp [runCommand, h]

theorem finish_eq_reply (r : CmdResult) (s : State) :
    finish r s = s.reply r (finalAck r s.res.ack) (finalParityError r s.res.parityError) s.res.attempts := rfl

end Sys2Proof.Machine
end

