-- ==== Sys2Proof/Laws/Frame.lean ====
section
/-! SUPPORT. One equation per shape of transaction frame (30_encoding.md Table TF): a read answered `OK`, a write answered `OK`, and any
request answered otherwise. -/

namespace Sys2Proof.Machine

@[simp] theorem recordAck_wires (s : State) (a : Ack) (pe : Bool) (cs : List Cycle) (o : Bit) (d : Bool) :
    (s.recordAck a pe).wires cs o d = (s.wires cs o d).recordAck a pe := rfl
@[simp] theorem recordAck_leaving (s : State) (a : Ack) (pe : Bool) (r : List Bit) :
    (s.recordAck a pe).leaving r = (s.leaving r).recordAck a pe := rfl
@[simp] theorem recordAck_withSeq (s : State) (a : Ack) (pe : Bool) (q : Sequencer) :
    (s.withSeq q).recordAck a pe = (s.recordAck a pe).withSeq q := rfl
@[simp] theorem recordAck_recordAck (s : State) (a b : Ack) (p q : Bool) :
    (s.recordAck a p).recordAck b q = s.recordAck b q := rfl

/-- The turnaround counts its cycles in `seq.bit` and leaves the rest of the sequencer alone (R154). -/
theorem pulses_seq (i n : Nat) (s : State) : (pulses i n s).seq = { s.seq with bit := (pulses i n s).seq.bit } := by
  induction n generalizing i s with
  | zero => rfl
  | succ n ih => exact ih (i + 1) (pulse (s.atBit i))

theorem ensureDriving_seq (s : State) : (ensureDriving s).seq = { s.seq with bit := (ensureDriving s).seq.bit } := by
  unfold ensureDriving
  split
  · rfl
  · exact pulses_seq 0 _ s

@[simp] theorem lead_driving (s : State) (h : s.link.driving = true) : lead s = [] := by simp [lead, h]

theorem header_bit7 (par : Params) (p r : Bit) (a : Addr) : (header par p r a).getLsbD 7 = par.parkBit := by
  rw [header, BitVec.getLsbD_append]
  simp

/-- Phases `LEAD` and `HEADER` (42_transaction.md R140). -/
theorem sendHeader_eq (h : BitVec 8) (s : State) (hf : s.link.driving = s.dioOE) :
    sendHeader h s = (s.wires (lead s ++ drivenCycles (wireBits h)) (h.getLsbD 7) true).withSeq
      { s.seq with phase := .header, bit := 7 } := by
  have e : (ensureDriving (s.enter .lead)).enter .header
      = (ensureDriving (s.enter .lead)).withSeq { s.seq with phase := .header, bit := 0 } := by
    rw [enter_eq, ensureDriving_seq]
    rfl
  rw [sendHeader, writeBits, e, sendBits_ensureDriving 0 _ (wireBits_ne_nil h (by omega)) (s.enter .lead) _ hf, wireBits_getLast]
  simp [enter_eq, lead_withSeq]

/-- Phases `TRN1` and `ACK` after a header: SWDLC drives, no sample is outstanding, and the target answers `a`. -/
theorem receiveAck_driving (a : BitVec 3) (rest : List Bit) (s : State) (hd : s.link.driving = true)
    (ha : s.answers = wireBits a ++ rest) :
    receiveAck s = (decodeAck s.par a,
      (((s.leaving rest).wires (turnaround s.sampled s.par.trn ++ sampledCycles (wireBits a)) s.dioOut false).recordAck
        (decodeAck s.par a) false).withSeq { s.seq with phase := .ack, bit := 2 }) := by
  have key : readBits 3 ((turnToTarget (s.enter .trn1)).enter .ack) =
      (a, ((s.leaving rest).wires (turnaround s.sampled s.par.trn ++ sampledCycles (wireBits a)) s.dioOut false).withSeq
        { s.seq with phase := .ack, bit := 2 }) := by
    rw [turnToTarget_driving (s.enter .trn1) hd]
    by_cases hn : s.par.trn = 0
    · rw [if_pos (by simpa using hn), readBits_eq a (by omega) rest ((release (s.enter .trn1)).enter .ack) rfl rfl ha]
      simp [hn, turnaround]; rfl
    · rw [if_neg (by simpa using hn), readBits_eq a (by omega) rest ((((s.enter .trn1).wires _ _ false).withSeq _).enter .ack) rfl rfl ha]
      simp only [enter_eq, withSeq_withSeq, withSeq_wires, withSeq_seq, leaving_withSeq, leaving_wires, wires_wires]
      rfl
  rw [receiveAck, key]
  rfl

/-- The same with the line already released: no turnaround (R142). -/
theorem receiveAck_released (a : BitVec 3) (rest : List Bit) (s : State) (hd : s.link.driving = false) (hoe : s.dioOE = false)
    (ha : s.answers = wireBits a ++ rest) :
    receiveAck s = (decodeAck s.par a,
      (((s.leaving rest).wires (sampledCycles (wireBits a)) s.dioOut false).recordAck
        (decodeAck s.par a) false).withSeq { s.seq with phase := .ack, bit := 2 }) := by
  have key : readBits 3 ((turnToTarget (s.enter .trn1)).enter .ack) =
      (a, ((s.leaving rest).wires (sampledCycles (wireBits a)) s.dioOut false).withSeq
        { s.seq with phase := .ack, bit := 2 }) := by
    rw [turnToTarget_released (s.enter .trn1) hd, readBits_eq a (by omega) rest ((s.enter .trn1).enter .ack) hoe hd ha]
    rfl
  rw [receiveAck, key]
  rfl

/-- The sequencer after a frame: phase `IDLE`, the attempt count as it was. -/
def afterFrame (s : State) : Sequencer := { s.seq with phase := .idle, bit := 0 }

/-- How every frame opens, the target answering `a` (Table TF). -/
theorem frame_opens (q : Request) (a : BitVec 3) (rest : List Bit) (s : State) (hf : s.link.driving = s.dioOE)
    (ha : s.answers = wireBits a ++ rest) :
    receiveAck (sendHeader (header s.par q.isAP q.isRead q.addr) s) = (decodeAck s.par a,
      (((s.leaving rest).wires (lead s ++ requestCycles s.par q a) s.par.parkBit false).recordAck
        (decodeAck s.par a) false).withSeq { s.seq with phase := .ack, bit := 2 }) := by
  rw [sendHeader_eq _ s hf, receiveAck_driving a rest ((s.wires _ _ true).withSeq _) rfl ha, header_bit7]
  simp [requestCycles, headerCycles, trnCycles, List.append_assoc]

theorem readPhase_eq (w : Word32) (p : Bit) (rest : List Bit) (s : State) (hd : s.link.driving = false) (hoe : s.dioOE = false)
    (ha : s.answers = wireBits w ++ p :: rest) (hk : s.res.ack = some .ok) (hp : s.res.parityError = false) :
    readPhase s = (readOutcome w p,
      (((s.leaving rest).wires (sampledCycles (wireBits w) ++ [Cycle.sampled p]) s.dioOut false).recordAck .ok
        (decide (p ≠ parity32 w))).withSeq { s.seq with phase := .rparity, bit := 0 }) := by
  have h1 := readBits_eq w (by omega) (p :: rest) (s.enter .rdata) hoe hd ha
  have h2 := readBits_eq (BitVec.ofBool p) (by omega) rest
    (((s.leaving (p :: rest)).wires (sampledCycles (wireBits w)) s.dioOut false).withSeq
      { s.seq with phase := .rparity, bit := 0 }) rfl rfl (by simp)
  have e : (readBits 32 (s.enter .rdata)).2.enter .rparity =
      (((s.leaving (p :: rest)).wires (sampledCycles (wireBits w)) s.dioOut false).withSeq
        { s.seq with phase := .rparity, bit := 0 }) := by
    rw [h1]; rfl
  have hb : ∀ b c : Bit, (BitVec.ofBool b = BitVec.ofBool c) ↔ b = c := by decide
  have hres : ∀ t : State, t.res = s.res → t = t.recordAck .ok false := by
    intro t ht
    cases t with | mk par cfg link clk dioOut dioOE rst op seq busy res sampled trace rstTrace port answers free =>
    cases res
    simp only at ht
    rw [← ht] at hk hp
    simp only at hk hp
    subst hk hp
    rfl
  simp only [readPhase, e]
  rw [h2, h1]
  simp only [checkParity, hb, readOutcome]
  by_cases hpe : p = parity32 w
  · rw [if_pos hpe, if_pos hpe]
    refine Prod.ext rfl ?_
    simp only [leaving_withSeq, leaving_wires, withSeq_wires, wires_wires, withSeq_withSeq, withSeq_seq]
    rw [hres _ rfl]
    simp [hpe]
  · rw [if_neg hpe, if_neg hpe]
    simp [hpe]

theorem postIdle_eq (s : State) (hd : s.link.driving = true) (hc : s.clk = .driven true) (hs : s.sampled = none)
    (ho : s.dioOE = true) :
    postIdle s = (s.wires (postCycles s.par) (restLevel s.par s.dioOut) true).withSeq
      { s.seq with phase := .post, bit := s.par.postIdle - 1 } := by
  rw [postIdle, cycles_eq]
  cases s with | mk par cfg link clk dioOut dioOE rst op seq busy res sampled trace rstTrace port answers free =>
  cases link
  simp only at hd hc hs ho
  subst hd hc hs ho
  by_cases hn : par.postIdle = 0
  · simp [hn, State.wires, State.withSeq, postCycles, restLevel, State.enter]
  · simp [hn, State.wires, State.withSeq, postCycles, restLevel, State.enter, Cycle.driven]

/-- Phases `TRN2` to `POST` with the line released and no sample outstanding: a turnaround, the word, one more bit, `POST_IDLE`. -/
theorem tail_eq (v : Word32) (b : Bit) (p1 p2 : Phase) (s : State) (hd : s.link.driving = false) (hoe : s.dioOE = false)
    (hs : s.sampled = none) :
    postIdle (writeBits (BitVec.ofBool b) ((writeBits v ((ensureDriving (s.enter .trn2)).enter p1)).enter p2)) =
      (s.wires (trnCycles s.par ++ drivenCycles (wireBits v) ++ [Cycle.driven b] ++ postCycles s.par)
        (restLevel s.par b) true).withSeq { s.seq with phase := .post, bit := s.par.postIdle - 1 } := by
  have e : (ensureDriving (s.enter .trn2)).enter p1 = (ensureDriving (s.enter .trn2)).withSeq { s.seq with phase := p1, bit := 0 } := by
    rw [enter_eq, ensureDriving_seq]
    rfl
  have h1 : writeBits v ((ensureDriving (s.enter .trn2)).enter p1) =
      (s.wires (trnCycles s.par ++ drivenCycles (wireBits v)) (v.getLsbD 31) true).withSeq { s.seq with phase := p1, bit := 31 } := by
    rw [writeBits, e, sendBits_ensureDriving 0 _ (wireBits_ne_nil v (by omega)) (s.enter .trn2) _ (by simp [hd, hoe]), wireBits_getLast]
    simp [lead, hd, hs, trnCycles, enter_eq]
  rw [h1, writeBits_eq _ (by omega), postIdle_eq _ rfl rfl rfl rfl]
  simp [enter_eq]

/-- The drain (R150). -/
theorem drainPhase_eq (s : State) (hd : s.link.driving = false) (hoe : s.dioOE = false) (hs : s.sampled = none) :
    drainPhase s = (s.wires (trnCycles s.par ++ drivenCycles (wireBits s.par.dummyWord) ++ [Cycle.driven s.par.drainPark] ++
      postCycles s.par) (restLevel s.par s.par.drainPark) true).withSeq { s.seq with phase := .post, bit := s.par.postIdle - 1 } :=
  tail_eq _ _ _ _ s hd hoe hs

/-- Table TF, "read, ACK OK", good or bad parity (R147, R149). -/
theorem frame_read (q : Request) (a : BitVec 3) (w : Word32) (p : Bit) (rest : List Bit) (s : State)
    (hf : s.link.driving = s.dioOE) (hr : q.isRead = true) (hk : decodeAck s.par a = .ok)
    (ha : s.answers = wireBits a ++ (wireBits w ++ p :: rest)) :
    frame q s = (readOutcome w p,
      (((s.leaving rest).wires (lead s ++ readFrame s.par q a w p) s.par.parkBit false).recordAck .ok
        (decide (p ≠ parity32 w))).withSeq (afterFrame s)) := by
  have ho := frame_opens q a _ s hf ha
  rw [hk] at ho
  simp only [frame, ho]
  simp only [framePhases, hr, if_true]
  rw [readPhase_eq w p rest _ rfl rfl rfl rfl rfl]
  simp [readFrame, enter_eq, afterFrame, List.append_assoc]

/-- Table TF, "write, ACK OK" (R148). -/
theorem frame_write (q : Request) (a : BitVec 3) (rest : List Bit) (s : State)
    (hf : s.link.driving = s.dioOE) (hr : q.isRead = false) (hk : decodeAck s.par a = .ok)
    (ha : s.answers = wireBits a ++ rest) :
    frame q s = (.ok,
      (((s.leaving rest).wires (lead s ++ writeFrame s.par q a) (restLevel s.par (parity32 q.data)) true).recordAck .ok
        false).withSeq (afterFrame s)) := by
  have ho := frame_opens q a _ s hf ha
  rw [hk] at ho
  simp only [frame, ho]
  simp only [framePhases, hr, Bool.false_eq_true, if_false, writePhase]
  rw [tail_eq _ _ _ _ _ rfl rfl rfl]
  simp [writeFrame, enter_eq, afterFrame, List.append_assoc]

/-- Table TF, "read or write, ACK not OK" (R150). -/
theorem frame_drain (q : Request) (a : BitVec 3) (rest : List Bit) (s : State)
    (hf : s.link.driving = s.dioOE) (hk : decodeAck s.par a ≠ .ok) (ha : s.answers = wireBits a ++ rest) :
    frame q s = (outcomeOf (decodeAck s.par a),
      (((s.leaving rest).wires (lead s ++ drainFrame s.par q a) (restLevel s.par s.par.drainPark) true).recordAck
        (decodeAck s.par a) false).withSeq (afterFrame s)) := by
  have ho := frame_opens q a _ s hf ha
  have hd := drainPhase_eq ((((s.leaving rest).wires (lead s ++ requestCycles s.par q a) s.par.parkBit false).recordAck
    (decodeAck s.par a) false).withSeq { s.seq with phase := .ack, bit := 2 }) rfl rfl rfl
  simp only [frame, ho]
  cases hx : decodeAck s.par a with
  | ok => exact absurd hx hk
  | wait =>
    rw [hx] at hd
    simp only [framePhases, hd, outcomeOf]
    simp [drainFrame, enter_eq, afterFrame, List.append_assoc]
  | fault =>
    rw [hx] at hd
    simp only [framePhases, hd, outcomeOf]
    simp [drainFrame, enter_eq, afterFrame, List.append_assoc]
  | protocolError =>
    rw [hx] at hd
    simp only [framePhases, hd, outcomeOf]
    simp [drainFrame, enter_eq, afterFrame, List.append_assoc]

end Sys2Proof.Machine
end

