-- ==== Sys2Proof/Laws/Wire.lean ====
section
/-! SUPPORT. What every wire operation can do, for every answer of the target: it touches nothing of `SameControl`, keeps the flag in
step with the driver and SWCLK at rest, appends a bounded number of cycles, and counts a bounded number of attempts. -/

namespace Sys2Proof.Machine

/-- `t` is `s` after wire activity of at most `n` cycles and `k` counted attempts. -/
structure WireStep (n k : Nat) (s t : State) : Prop where
  control : SameControl s t
  busy : t.busy = s.busy
  flag : s.link.driving = s.dioOE → t.link.driving = t.dioOE
  clock : s.clk = .driven true → t.clk = .driven true
  appends : Appends s t n
  attempts : t.res.attempts ≤ s.res.attempts + k

theorem SameControl.refl (s : State) : SameControl s s := ⟨rfl, rfl, rfl, rfl, rfl, rfl, rfl, rfl⟩

theorem SameControl.trans {s t u : State} (h : SameControl s t) (g : SameControl t u) : SameControl s u :=
  ⟨g.par.trans h.par, g.cfg.trans h.cfg, g.initialized.trans h.initialized, g.connected.trans h.connected, g.rst.trans h.rst,
    g.rstTrace.trans h.rstTrace, g.op.trans h.op, g.port.trans h.port⟩

theorem Appends.refl (s : State) (n : Nat) : Appends s s n := ⟨[], by simp, by simp⟩

theorem Appends.trans {s t u : State} {n m : Nat} (h : Appends s t n) (g : Appends t u m) : Appends s u (n + m) := by
  obtain ⟨a, ha, la⟩ := h
  obtain ⟨b, hb, lb⟩ := g
  exact ⟨a ++ b, by rw [hb, ha, List.append_assoc], by simp; omega⟩

theorem Appends.mono {s t : State} {n m : Nat} (h : Appends s t n) (hnm : n ≤ m) : Appends s t m := by
  obtain ⟨a, ha, la⟩ := h
  exact ⟨a, ha, by omega⟩

theorem WireStep.refl (s : State) : WireStep 0 0 s s :=
  ⟨.refl s, rfl, id, id, .refl s 0, by omega⟩

theorem WireStep.trans {n m k l : Nat} {s t u : State} (h : WireStep n k s t) (g : WireStep m l t u) :
    WireStep (n + m) (k + l) s u :=
  ⟨h.control.trans g.control, g.busy.trans h.busy, fun x => g.flag (h.flag x), fun x => g.clock (h.clock x),
    h.appends.trans g.appends, by have := h.attempts; have := g.attempts; omega⟩

theorem WireStep.mono {n m k l : Nat} {s t : State} (h : WireStep n k s t) (hn : n ≤ m) (hk : k ≤ l) : WireStep m l s t :=
  ⟨h.control, h.busy, h.flag, h.clock, h.appends.mono hn, by have := h.attempts; omega⟩

theorem pulse_wire (s : State) : WireStep 1 0 s (pulse s) :=
  ⟨⟨rfl, rfl, rfl, rfl, rfl, rfl, rfl, rfl⟩, rfl, id, fun _ => rfl, ⟨[s.cycleRecord], rfl, by simp⟩, by simp⟩

theorem drive_wire (b : Bit) (s : State) : WireStep 0 0 s (drive b s) :=
  ⟨⟨rfl, rfl, rfl, rfl, rfl, rfl, rfl, rfl⟩, rfl, fun _ => rfl, id, ⟨[], by simp, by simp⟩, by simp⟩

theorem release_wire (s : State) : WireStep 0 0 s (release s) :=
  ⟨⟨rfl, rfl, rfl, rfl, rfl, rfl, rfl, rfl⟩, rfl, fun _ => rfl, id, ⟨[], by simp, by simp⟩, by simp⟩

theorem withSeq_wire (q : Sequencer) (s : State) : WireStep 0 0 s (s.withSeq q) :=
  ⟨⟨rfl, rfl, rfl, rfl, rfl, rfl, rfl, rfl⟩, rfl, id, id, ⟨[], by simp, by simp⟩, by simp⟩

theorem enter_wire (p : Phase) (s : State) : WireStep 0 0 s (s.enter p) := withSeq_wire _ s
theorem atBit_wire (i : Nat) (s : State) : WireStep 0 0 s (s.atBit i) := withSeq_wire _ s
theorem setAttempt_wire (n : Nat) (s : State) : WireStep 0 0 s (s.setAttempt n) := withSeq_wire _ s

theorem recordAck_wire (a : Ack) (pe : Bool) (s : State) : WireStep 0 0 s (s.recordAck a pe) :=
  ⟨⟨rfl, rfl, rfl, rfl, rfl, rfl, rfl, rfl⟩, rfl, id, id, ⟨[], by simp, by simp⟩, by simp⟩

theorem countAttempt_wire (s : State) : WireStep 0 1 s s.countAttempt :=
  ⟨⟨rfl, rfl, rfl, rfl, rfl, rfl, rfl, rfl⟩, rfl, id, id, ⟨[], by simp, by simp⟩, by simp⟩

theorem sample_wire (s : State) : WireStep 0 0 s (sample s).2 := by
  unfold sample oracleBit draw
  split
  · exact ⟨⟨rfl, rfl, rfl, rfl, rfl, rfl, rfl, rfl⟩, rfl, id, id, ⟨[], by simp, by simp⟩, by simp⟩
  · split <;> exact ⟨⟨rfl, rfl, rfl, rfl, rfl, rfl, rfl, rfl⟩, rfl, id, id, ⟨[], by simp, by simp⟩, by simp⟩

/-- Sampling does not move the line (R106). -/
theorem sample_line (s : State) : (sample s).2.link = s.link ∧ (sample s).2.dioOE = s.dioOE ∧ (sample s).2.dioOut = s.dioOut := by
  unfold sample oracleBit draw
  split
  · exact ⟨rfl, rfl, rfl⟩
  · split <;> exact ⟨rfl, rfl, rfl⟩

theorem sendBits_wire (i : Nat) (bs : List Bit) (s : State) : WireStep bs.length 0 s (sendBits i bs s) := by
  induction bs generalizing i s with
  | nil => exact .refl s
  | cons b bs ih =>
    exact ((((atBit_wire i s).trans (drive_wire b _)).trans (pulse_wire _)).trans (ih (i + 1) _)).mono
      (by simp; omega) (by omega)

theorem writeBits_wire {w : Nat} (v : BitVec w) (s : State) : WireStep w 0 s (writeBits v s) := by
  simpa [writeBits] using sendBits_wire 0 (wireBits v) s

theorem receiveBits_wire (i n : Nat) (s : State) : WireStep n 0 s (receiveBits i n s).2 := by
  induction n generalizing i s with
  | zero => exact .refl s
  | succ n ih =>
    exact ((((atBit_wire i s).trans (sample_wire _)).trans (pulse_wire _)).trans (ih (i + 1) _)).mono (by omega) (by omega)

theorem receiveBits_line (i n : Nat) (s : State) :
    (receiveBits i n s).2.link = s.link ∧ (receiveBits i n s).2.dioOE = s.dioOE ∧ (receiveBits i n s).2.dioOut = s.dioOut := by
  induction n generalizing i s with
  | zero => exact ⟨rfl, rfl, rfl⟩
  | succ n ih =>
    obtain ⟨h1, h2, h3⟩ := ih (i + 1) (pulse (sample (s.atBit i)).2)
    obtain ⟨g1, g2, g3⟩ := sample_line (s.atBit i)
    exact ⟨h1.trans g1, h2.trans g2, h3.trans g3⟩

theorem readBits_wire (n : Nat) (s : State) : WireStep n 0 s (readBits n s).2 := receiveBits_wire 0 n s

theorem readBits_line (n : Nat) (s : State) :
    (readBits n s).2.link = s.link ∧ (readBits n s).2.dioOE = s.dioOE ∧ (readBits n s).2.dioOut = s.dioOut :=
  receiveBits_line 0 n s

theorem cycles_wire (b : Bit) (n : Nat) (s : State) : WireStep n 0 s (cycles b n s) := by
  simpa [cycles] using sendBits_wire 0 (List.replicate n b) s

theorem pulses_wire (i n : Nat) (s : State) : WireStep n 0 s (pulses i n s) := by
  induction n generalizing i s with
  | zero => exact .refl s
  | succ n ih => exact (((atBit_wire i s).trans (pulse_wire _)).trans (ih (i + 1) _)).mono (by omega) (by omega)

theorem pulses_line (i n : Nat) (s : State) : (pulses i n s).link = s.link ∧ (pulses i n s).dioOE = s.dioOE := by
  induction n generalizing i s with
  | zero => exact ⟨rfl, rfl⟩
  | succ n ih => exact ih (i + 1) (pulse (s.atBit i))

/-- The turnaround owed before SWDLC can drive (R143). -/
def leadCycles (s : State) : Nat := if s.link.driving then 0 else s.par.trn

/-- The turnaround owed before SWDLC can sample (R143). -/
def turnCycles (s : State) : Nat := if s.link.driving then s.par.trn else 0

theorem leadCycles_enter (p : Phase) (s : State) : leadCycles (s.enter p) = leadCycles s := rfl
theorem turnCycles_enter (p : Phase) (s : State) : turnCycles (s.enter p) = turnCycles s := rfl
theorem leadCycles_driving {s : State} (h : s.link.driving = true) : leadCycles s = 0 := by simp [leadCycles, h]
theorem leadCycles_released {s : State} (h : s.link.driving = false) : leadCycles s = s.par.trn := by simp [leadCycles, h]
theorem turnCycles_driving {s : State} (h : s.link.driving = true) : turnCycles s = s.par.trn := by simp [turnCycles, h]
theorem leadCycles_le (s : State) : leadCycles s ≤ s.par.trn := by unfold leadCycles; split <;> omega

/-- `ensureDriving` costs a turnaround only when the line is released (R143). -/
theorem ensureDriving_wire (s : State) : WireStep (leadCycles s) 0 s (ensureDriving s) := by
  unfold ensureDriving leadCycles
  split
  · exact .refl s
  · exact ((pulses_wire _ _ s).trans (drive_wire _ _)).mono (by omega) (by omega)

theorem ensureDriving_driving (s : State) : (ensureDriving s).link.driving = true := by
  unfold ensureDriving
  split
  · assumption
  · rfl

theorem turnToTarget_wire (s : State) : WireStep (turnCycles s) 0 s (turnToTarget s) := by
  unfold turnToTarget turnCycles
  split
  · exact ((release_wire s).trans (pulses_wire _ _ _)).mono (by omega) (by omega)
  · exact .refl s

theorem turnToTarget_driving_false (s : State) : (turnToTarget s).link.driving = false := by
  unfold turnToTarget
  split
  · rw [(pulses_line _ _ _).1]; rfl
  · next h => simpa using h

theorem sendBits_driving (i : Nat) (bs : List Bit) (s : State) (h : s.link.driving = true) :
    (sendBits i bs s).link.driving = true := by
  induction bs generalizing i s with
  | nil => exact h
  | cons b bs ih => exact ih _ _ rfl

theorem cycles_driving (b : Bit) (n : Nat) (s : State) (h : s.link.driving = true) : (cycles b n s).link.driving = true :=
  sendBits_driving 0 _ s h

end Sys2Proof.Machine
end

