-- ==== Sys2Proof/Laws/Access.lean ====
section
/-! SUPPORT. What a frame, the abort write and the retry loop can do, for every answer of the target: their cycles, their attempts, and
the direction they leave the line in (42_transaction.md R153, 43_register_access.md R180). -/

namespace Sys2Proof.Machine

theorem sendHeader_wire (h : BitVec 8) (s : State) : WireStep (leadCycles s + 8) 0 s (sendHeader h s) := by
  have e := ensureDriving_wire (s.enter .lead)
  rw [leadCycles_enter] at e
  exact ((((enter_wire .lead s).trans e).trans (enter_wire .header _)).trans (writeBits_wire h _)).mono (by omega) (by omega)

theorem sendHeader_driving (h : BitVec 8) (s : State) : (sendHeader h s).link.driving = true :=
  sendBits_driving _ _ _ (ensureDriving_driving _)

theorem receiveAck_wire (s : State) : WireStep (turnCycles s + 3) 0 s (receiveAck s).2 := by
  have e := turnToTarget_wire (s.enter .trn1)
  rw [turnCycles_enter] at e
  exact (((((enter_wire .trn1 s).trans e).trans (enter_wire .ack _)).trans (readBits_wire 3 _)).trans
    (recordAck_wire _ _ _)).mono (by omega) (by omega)

theorem receiveAck_released_after (s : State) : (receiveAck s).2.link.driving = false := by
  show (readBits 3 ((turnToTarget (s.enter .trn1)).enter .ack)).2.link.driving = false
  rw [(readBits_line _ _).1]
  exact turnToTarget_driving_false _

theorem checkParity_wire (w : Word32) (p : BitVec 1) (s : State) :
    WireStep 0 0 s (checkParity w p s).2 ∧ (checkParity w p s).2.link = s.link ∧
      ((∃ w', (checkParity w p s).1 = .okData w') ∨ (checkParity w p s).1 = .parityError) := by
  unfold checkParity
  by_cases h : p = BitVec.ofBool (parity32 w)
  · rw [if_pos h]; exact ⟨.refl s, rfl, .inl ⟨_, rfl⟩⟩
  · rw [if_neg h]; exact ⟨recordAck_wire _ _ _, rfl, .inr rfl⟩

theorem readPhase_wire (s : State) : WireStep 33 0 s (readPhase s).2 := by
  simp only [readPhase]
  have h1 := (enter_wire .rdata s).trans (readBits_wire 32 (s.enter .rdata))
  generalize readBits 32 (s.enter .rdata) = d at h1 ⊢
  have h2 := (h1.trans (enter_wire .rparity d.2)).trans (readBits_wire 1 (d.2.enter .rparity))
  generalize readBits 1 (d.2.enter .rparity) = p at h2 ⊢
  exact (h2.trans (checkParity_wire d.1 p.1 p.2).1).mono (by omega) (by omega)

theorem readPhase_link (s : State) : (readPhase s).2.link = s.link := by
  simp only [readPhase]
  have h1 := (readBits_line 32 (s.enter .rdata)).1
  generalize readBits 32 (s.enter .rdata) = d at h1 ⊢
  have h2 := (readBits_line 1 (d.2.enter .rparity)).1
  generalize readBits 1 (d.2.enter .rparity) = p at h2 ⊢
  exact ((checkParity_wire d.1 p.1 p.2).2.1.trans h2).trans h1

theorem readPhase_outcome (s : State) : (∃ w, (readPhase s).1 = .okData w) ∨ (readPhase s).1 = .parityError := by
  simp only [readPhase]
  exact (checkParity_wire _ _ _).2.2

theorem postIdle_wire (s : State) : WireStep s.par.postIdle 0 s (postIdle s) :=
  ((enter_wire .post s).trans (cycles_wire _ _ _)).mono (by simp) (by omega)

theorem tail_wire (v : Word32) (b : Bit) (p1 p2 : Phase) (s : State) :
    WireStep (leadCycles s + 33 + s.par.postIdle) 0 s
      (postIdle (writeBits (BitVec.ofBool b) ((writeBits v ((ensureDriving (s.enter .trn2)).enter p1)).enter p2))) := by
  have e := ensureDriving_wire (s.enter .trn2)
  rw [leadCycles_enter] at e
  have h := (((((enter_wire .trn2 s).trans e).trans (enter_wire p1 _)).trans (writeBits_wire v _)).trans
    (enter_wire p2 _)).trans (writeBits_wire (BitVec.ofBool b) _)
  have hp := h.control.par
  have h2 := h.trans (postIdle_wire _)
  rw [hp] at h2
  exact h2.mono (by omega) (by omega)

theorem tail_driving (v : Word32) (b : Bit) (p1 p2 : Phase) (s : State) :
    (postIdle (writeBits (BitVec.ofBool b) ((writeBits v ((ensureDriving (s.enter .trn2)).enter p1)).enter p2))).link.driving
      = true :=
  cycles_driving _ _ _ (sendBits_driving _ _ _ (sendBits_driving _ _ _ (ensureDriving_driving _)))

/-- The outcomes of a frame by its direction, the line after it (R153) and its length (R152, Table TO). -/
theorem frame_cases (q : Request) (s : State) :
    (q.isRead = true ∧ ((∃ w, (frame q s).1 = .okData w) ∨ (frame q s).1 = .parityError) ∧
      (frame q s).2.link.driving = false ∧ WireStep (leadCycles s + 44 + s.par.trn) 0 s (frame q s).2) ∨
    (q.isRead = false ∧ (frame q s).1 = .ok ∧
      (frame q s).2.link.driving = true ∧ WireStep (leadCycles s + frameCycles s.par) 0 s (frame q s).2) ∨
    (((frame q s).1 = .wait ∨ (frame q s).1 = .fault ∨ (frame q s).1 = .protocolError) ∧
      (frame q s).2.link.driving = true ∧ WireStep (leadCycles s + frameCycles s.par) 0 s (frame q s).2) := by
  have h1 := sendHeader_wire (header s.par q.isAP q.isRead q.addr) s
  have hd := sendHeader_driving (header s.par q.isAP q.isRead q.addr) s
  have h2 := receiveAck_wire (sendHeader (header s.par q.isAP q.isRead q.addr) s)
  rw [turnCycles_driving hd, h1.control.par] at h2
  have h12 := h1.trans h2
  have hr := receiveAck_released_after (sendHeader (header s.par q.isAP q.isRead q.addr) s)
  unfold frame
  generalize receiveAck (sendHeader (header s.par q.isAP q.isRead q.addr) s) = r at h12 hr ⊢
  obtain ⟨a, t⟩ := r
  simp only at h12 hr ⊢
  have hpar : t.par = s.par := h12.control.par
  have hlead : leadCycles t = s.par.trn := by rw [leadCycles_released hr, hpar]
  have hdw : WireStep (leadCycles s + frameCycles s.par) 0 s ((drainPhase t).enter .idle) := by
    have h3 : WireStep (leadCycles t + 33 + t.par.postIdle) 0 t (drainPhase t) :=
      tail_wire t.par.dummyWord t.par.drainPark .drain .dpark t
    rw [hlead, hpar] at h3
    exact ((h12.trans h3).trans (enter_wire .idle _)).mono (by simp only [frameCycles]; omega) (by omega)
  have hdd : ((drainPhase t).enter .idle).link.driving = true := tail_driving _ _ _ _ _
  cases a with
  | ok =>
    cases hq : q.isRead with
    | true =>
      have hp : framePhases q .ok t = readPhase t := by simp [framePhases, hq]
      rw [hp]
      refine .inl ⟨rfl, readPhase_outcome t, ?_, ?_⟩
      · have h4 := readPhase_link t
        generalize readPhase t = r at h4 ⊢
        show r.2.link.driving = false
        rw [h4]; exact hr
      · have h3 := h12.trans (readPhase_wire t)
        generalize readPhase t = r at h3 ⊢
        exact (h3.trans (enter_wire .idle r.2)).mono (by omega) (by omega)
    | false =>
      have hp : framePhases q .ok t = (.ok, writePhase q.data t) := by simp [framePhases, hq]
      rw [hp]
      have h3 : WireStep (leadCycles t + 33 + t.par.postIdle) 0 t (writePhase q.data t) :=
        tail_wire q.data (parity32 q.data) .wdata .wparity t
      rw [hlead, hpar] at h3
      refine .inr (.inl ⟨rfl, rfl, ?_, ?_⟩)
      · exact tail_driving q.data (parity32 q.data) .wdata .wparity t
      · exact ((h12.trans h3).trans (enter_wire .idle _)).mono (by simp only [frameCycles]; omega) (by omega)
  | wait => exact .inr (.inr ⟨.inl rfl, hdd, hdw⟩)
  | fault => exact .inr (.inr ⟨.inr (.inl rfl), hdd, hdw⟩)
  | protocolError => exact .inr (.inr ⟨.inr (.inr rfl), hdd, hdw⟩)

/-- One frame costs at most the turnaround owed and `frameCycles`. -/
theorem frame_bound (q : Request) (s : State) : WireStep (leadCycles s + frameCycles s.par) 0 s (frame q s).2 := by
  rcases frame_cases q s with ⟨_, _, _, h⟩ | ⟨_, _, _, h⟩ | ⟨_, _, h⟩
  · exact h.mono (by simp only [frameCycles]; omega) (by omega)
  · exact h
  · exact h

/-- The abort write is a write: it leaves the line driven (R176). -/
theorem clearErrors_wire (s : State) :
    (clearErrorsBody s).2.link.driving = true ∧ WireStep (leadCycles s + frameCycles s.par) 0 s (clearErrorsBody s).2 := by
  refine ⟨?_, frame_bound _ s⟩
  rcases frame_cases (abortRequest s.par) s with ⟨h, _⟩ | ⟨_, _, h, _⟩ | ⟨_, h, _⟩
  · exact absurd h (by simp [abortRequest])
  · exact h
  · exact h

/-- What `clearErrors` can answer: success, or an error of one of two classes (R176). -/
theorem abortResult_cases (o : FrameOutcome) :
    abortResult o = .ok ∨ ∃ c i, abortResult o = .err c i ∧ (c = .protocolTimeout ∨ c = .protocolFault) := by
  cases o <;> simp [abortResult]

/-- One attempt (R170). -/
theorem attempt_wire (q : Request) (s : State) :
    (attempt q s).1 = (frame q s.countAttempt).1 ∧
      (attempt q s).2.link = (frame q s.countAttempt).2.link ∧
      ∀ n, WireStep n 0 s.countAttempt (frame q s.countAttempt).2 → WireStep n 1 s (attempt q s).2 := by
  simp only [attempt]
  generalize frame q s.countAttempt = r
  exact ⟨trivial, rfl, fun n h => (((countAttempt_wire s).trans h).trans (setAttempt_wire (r.2.seq.attempt + 1) r.2)).mono
    (by omega) (by omega)⟩

/-- What a register command can return (Table RM). -/
def CmdResult.fromLoop : CmdResult → Prop
  | .ok => True
  | .okWord _ => True
  | .okBit _ => False
  | .okOutcome _ => False
  | .err c _ => c = .protocolTimeout ∨ c = .protocolFault

theorem loopTurn_okData (q : Request) (w : Word32) (s : State) (h : (attempt q s).1 = .okData w) :
    loopTurn q s = (.done (.okWord w), (attempt q s).2) := by simp only [loopTurn, h]

theorem loopTurn_ok (q : Request) (s : State) (h : (attempt q s).1 = .ok) :
    loopTurn q s = (.done .ok, (attempt q s).2) := by simp only [loopTurn, h]

theorem loopTurn_wait (q : Request) (s : State) (h : (attempt q s).1 = .wait) :
    loopTurn q s = (.again .wait, (attempt q s).2) := by simp only [loopTurn, h]

/-- `FAULT`, and the abort write answered `OK` (R178). -/
theorem loopTurn_fault (q : Request) (s : State) (h : (attempt q s).1 = .fault)
    (hc : (clearErrorsBody (attempt q s).2).1 = .ok) :
    loopTurn q s = (.again .fault, (clearErrorsBody (attempt q s).2).2) := by simp only [loopTurn, h, hc]

/-- `FAULT`, and the abort write answered otherwise: the loop ends with its error (R178). -/
theorem loopTurn_fault_err (q : Request) (e : ErrorClass) (i : Option FrameOutcome) (s : State) (h : (attempt q s).1 = .fault)
    (hc : (clearErrorsBody (attempt q s).2).1 = .err e i) :
    loopTurn q s = (.done (.err e i), (clearErrorsBody (attempt q s).2).2) := by simp only [loopTurn, h, hc]

theorem loopTurn_parityError (q : Request) (s : State) (h : (attempt q s).1 = .parityError) :
    loopTurn q s = (loopTurn.nonretry s.par .parityError, (attempt q s).2) := by simp only [loopTurn, h]

theorem loopTurn_protocolError (q : Request) (s : State) (h : (attempt q s).1 = .protocolError) :
    loopTurn q s = (loopTurn.nonretry s.par .protocolError, (attempt q s).2) := by simp only [loopTurn, h]

/-- What a turn of the loop can lead to, for a read or a write (Table RM). -/
def Turn.allowed (isRead : Bool) : Turn → Prop
  | .done (.okWord _) => isRead = true
  | .done .ok         => isRead = false
  | .done (.err c _)  => c = .protocolTimeout ∨ c = .protocolFault
  | .done _           => False
  | .again _          => True

theorem nonretry_allowed (r : Bool) (par : Params) (o : FrameOutcome) : (loopTurn.nonretry par o).allowed r ∧
    (∀ w, loopTurn.nonretry par o ≠ .done (.okWord w)) := by
  unfold loopTurn.nonretry
  split
  · exact ⟨.inr rfl, by simp⟩
  · exact ⟨trivial, by simp⟩

/-- One turn of the loop: what it leads to and what it costs. The abort write is counted in the cycles and not in the attempts
(R170). -/
theorem loopTurn_wire (q : Request) (s : State) :
    (loopTurn q s).1.allowed q.isRead ∧
    WireStep (leadCycles s + 2 * frameCycles s.par) 1 s (loopTurn q s).2 ∧
    (∀ w, (loopTurn q s).1 = .done (.okWord w) → WireStep (leadCycles s + 44 + s.par.trn) 1 s (loopTurn q s).2) ∧
    (∃ m, WireStep m 1 s (loopTurn q s).2 ∧ m + leadCycles (loopTurn q s).2 ≤ leadCycles s + 2 * frameCycles s.par) := by
  obtain ⟨ha1, ha2, ha3⟩ := attempt_wire q s
  have hw := frame_cases q s.countAttempt
  have hlc : leadCycles s.countAttempt = leadCycles s := rfl
  rw [hlc, countAttempt_par, ← ha1, ← ha2] at hw
  have h44 : 44 + s.par.trn ≤ frameCycles s.par := by simp only [frameCycles]; omega
  have h44' : 44 + s.par.trn + s.par.trn ≤ frameCycles s.par := by simp only [frameCycles]; omega
  rcases hw with ⟨hr, ⟨w, h1⟩ | h1, hd, h⟩ | ⟨hr, h1, hd, h⟩ | ⟨h1 | h1 | h1, hd, h⟩
  · have hs := ha3 _ h
    rw [loopTurn_okData q w s h1]
    exact ⟨hr, hs.mono (by omega) (by omega), fun _ _ => hs,
      _, hs, by have := leadCycles_le (attempt q s).2; rw [hs.control.par] at this; simp only; omega⟩
  · have hs := ha3 _ h
    rw [loopTurn_parityError q s h1]
    exact ⟨(nonretry_allowed _ _ _).1, hs.mono (by omega) (by omega), fun w hw => absurd hw ((nonretry_allowed true _ _).2 w),
      _, hs, by have := leadCycles_le (attempt q s).2; rw [hs.control.par] at this; simp only; omega⟩
  · have hs := ha3 _ h
    rw [loopTurn_ok q s h1]
    exact ⟨hr, hs.mono (by omega) (by omega), fun w hw => (by cases hw), _, hs, by rw [leadCycles_driving hd]; omega⟩
  · have hs := ha3 _ h
    rw [loopTurn_wait q s h1]
    exact ⟨trivial, hs.mono (by omega) (by omega), fun w hw => (by cases hw), _, hs, by rw [leadCycles_driving hd]; omega⟩
  · have hs := ha3 _ h
    obtain ⟨cd, cw⟩ := clearErrors_wire (attempt q s).2
    rw [leadCycles_driving hd, hs.control.par] at cw
    have hsc : WireStep (leadCycles s + 2 * frameCycles s.par) 1 s (clearErrorsBody (attempt q s).2).2 :=
      (hs.trans cw).mono (by omega) (by omega)
    have hend : ∃ m, WireStep m 1 s (clearErrorsBody (attempt q s).2).2 ∧
        m + leadCycles (clearErrorsBody (attempt q s).2).2 ≤ leadCycles s + 2 * frameCycles s.par :=
      ⟨_, hsc, by rw [leadCycles_driving cd]; omega⟩
    have hres : (clearErrorsBody (attempt q s).2).1 = .ok ∨ ∃ c i, (clearErrorsBody (attempt q s).2).1 = .err c i ∧
        (c = .protocolTimeout ∨ c = .protocolFault) := by
      simp only [clearErrorsBody]; exact abortResult_cases _
    rcases hres with hc | ⟨c, i, hc, hci⟩
    · rw [loopTurn_fault q s h1 hc]
      exact ⟨trivial, hsc, fun w hw => (by cases hw), hend⟩
    · rw [loopTurn_fault_err q c i s h1 hc]
      exact ⟨hci, hsc, fun w hw => (by cases hw), hend⟩
  · have hs := ha3 _ h
    rw [loopTurn_protocolError q s h1]
    exact ⟨(nonretry_allowed _ _ _).1, hs.mono (by omega) (by omega), fun w hw => absurd hw ((nonretry_allowed true _ _).2 w),
      _, hs, by rw [leadCycles_driving hd]; omega⟩

theorem retryLoop_done (q : Request) (n : Nat) (last : Option FrameOutcome) (r : CmdResult) (s : State)
    (h : (loopTurn q s).1 = .done r) : retryLoop q (n + 1) last s = (r, (loopTurn q s).2) := by
  simp only [retryLoop, h]

theorem retryLoop_again (q : Request) (n : Nat) (last : Option FrameOutcome) (o : FrameOutcome) (s : State)
    (h : (loopTurn q s).1 = .again o) : retryLoop q (n + 1) last s = retryLoop q n (some o) (loopTurn q s).2 := by
  simp only [retryLoop, h]

/-- The retry loop with `n` attempts left: at most `n` attempts and `2 * n` frames, and a word is returned only after at most
`2 * n - 1` frames, the last of them a read (43_register_access.md R180). -/
theorem retryLoop_wire (q : Request) (n : Nat) (last : Option FrameOutcome) (s : State) :
    WireStep (leadCycles s + 2 * n * frameCycles s.par) n s (retryLoop q n last s).2 ∧
      (retryLoop q n last s).1.fromLoop ∧
      (∀ w, (retryLoop q n last s).1 = .okWord w →
        WireStep (leadCycles s + 2 * (n - 1) * frameCycles s.par + 44 + s.par.trn) n s (retryLoop q n last s).2) := by
  induction n generalizing last s with
  | zero => exact ⟨(WireStep.refl s).mono (by omega) (by omega), .inl rfl, by intro w h; cases h⟩
  | succ n ih =>
    have h2n : 2 * (n + 1) * frameCycles s.par = 2 * frameCycles s.par + 2 * n * frameCycles s.par := by ring
    have hn1 : n ≠ 0 → 2 * n * frameCycles s.par = 2 * frameCycles s.par + 2 * (n - 1) * frameCycles s.par := by
      intro h; obtain ⟨m, rfl⟩ := Nat.exists_eq_succ_of_ne_zero h; simp; ring
    have h44 : 44 + s.par.trn ≤ frameCycles s.par := by simp only [frameCycles]; omega
    rw [Nat.add_sub_cancel]
    obtain ⟨hal, hall, hword, m, hm, hlead⟩ := loopTurn_wire q s
    cases ht : (loopTurn q s).1 with
    | done r =>
      rw [retryLoop_done q n last r s ht]
      refine ⟨hall.mono (by omega) (by omega), ?_, fun w hw => ?_⟩
      · rw [ht] at hal
        cases r <;> first | exact trivial | exact hal
      · simp only at hw
        subst hw
        exact (hword w ht).mono (by omega) (by omega)
    | again o =>
      rw [retryLoop_again q n last o s ht]
      obtain ⟨i1, i2, i3⟩ := ih (some o) (loopTurn q s).2
      have htp : (loopTurn q s).2.par = s.par := hm.control.par
      rw [htp] at i1
      refine ⟨(hm.trans i1).mono (by omega) (by omega), i2, fun w hw' => ?_⟩
      have i4 := i3 w hw'
      rw [htp] at i4
      by_cases hn : n = 0
      · subst hn; cases hw'
      · exact (hm.trans i4).mono (by rw [hn1 hn]; omega) (by omega)

/-- A loop over a read returns a word or an error, and a loop over a write returns no word (Table TO, Table RM). -/
theorem retryLoop_kind (q : Request) (n : Nat) (last : Option FrameOutcome) (s : State) :
    (q.isRead = true → (retryLoop q n last s).1 ≠ .ok) ∧ (q.isRead = false → ∀ w, (retryLoop q n last s).1 ≠ .okWord w) := by
  induction n generalizing last s with
  | zero =>
    constructor
    · intro _ h; cases h
    · intro _ _ h; cases h
  | succ n ih =>
    have hal := (loopTurn_wire q s).1
    cases ht : (loopTurn q s).1 with
    | done r =>
      rw [retryLoop_done q n last r s ht]
      rw [ht] at hal
      constructor
      · intro h h'; subst h'; rw [hal] at h; cases h
      · intro h w h'; simp only at h'; subst h'; rw [hal] at h; cases h
    | again o => rw [retryLoop_again q n last o s ht]; exact ih (some o) _

/-- A whole retry loop (R170, R180). -/
theorem retry_wire (q : Request) (s : State) :
    WireStep (leadCycles s + 2 * s.par.retryBound * frameCycles s.par) s.par.retryBound s (retry q s).2 ∧
      (retry q s).1.fromLoop ∧
      (∀ w, (retry q s).1 = .okWord w →
        WireStep (leadCycles s + 2 * (s.par.retryBound - 1) * frameCycles s.par + 44 + s.par.trn) s.par.retryBound s
          (retry q s).2) := by
  obtain ⟨h1, h2, h3⟩ := retryLoop_wire q s.par.retryBound none (s.setAttempt 0)
  refine ⟨((setAttempt_wire 0 s).trans h1).mono ?_ (by omega), h2, fun w hw => ?_⟩
  · show 0 + (leadCycles s + 2 * s.par.retryBound * frameCycles s.par) ≤ _; omega
  · refine ((setAttempt_wire 0 s).trans (h3 w hw)).mono ?_ (by omega)
    show 0 + (leadCycles s + 2 * (s.par.retryBound - 1) * frameCycles s.par + 44 + s.par.trn) ≤ _; omega

end Sys2Proof.Machine
end

