-- ==== Sys2Proof/Laws/Loop.lean ====
section
/-! SUPPORT. What a retry loop does on a scripted target: a run of attempts that lead to another one, and how the loop then ends
(43_register_access.md R170, R177 to R179). -/

namespace Sys2Proof.Machine

/-- `t` is `s` after the cycles `cs` and `k` counted attempts, up to the sequencer and the transient part of the response port. -/
def After (s t : State) (rest : List Bit) (cs : List Cycle) (out : Bit) (d : Bool) (a : Ack) (pe : Bool) (k : Nat) : Prop :=
  ∃ (q : Sequencer) (r : Response), t = { ((s.leaving rest).wires cs out d).withSeq q with res := r } ∧
    r.ack = some a ∧ r.parityError = pe ∧ r.attempts = s.res.attempts + k

namespace After

variable {s t u : State} {rest rest' : List Bit} {cs cs' : List Cycle} {out out' : Bit} {d d' : Bool} {a a' : Ack} {pe pe' : Bool}
  {k k' : Nat}

theorem par (h : After s t rest cs out d a pe k) : t.par = s.par := by obtain ⟨q, r, rfl, _⟩ := h; rfl
theorem driving (h : After s t rest cs out d a pe k) : t.link.driving = d := by obtain ⟨q, r, rfl, _⟩ := h; rfl
theorem oe (h : After s t rest cs out d a pe k) : t.dioOE = d := by obtain ⟨q, r, rfl, _⟩ := h; rfl
theorem flag (h : After s t rest cs out d a pe k) : t.link.driving = t.dioOE := h.driving.trans h.oe.symm
theorem ans (h : After s t rest cs out d a pe k) : t.answers = rest := by obtain ⟨q, r, rfl, _⟩ := h; rfl

theorem lead_eq (h : After s t rest cs out d a pe k) : lead t = if d then [] else trnCycles s.par := by
  obtain ⟨q, r, rfl, _⟩ := h
  cases d
  · simp [lead, State.wires, State.withSeq, State.leaving, trnCycles]
  · rfl

theorem trans (h : After s t rest cs out d a pe k) (g : After t u rest' cs' out' d' a' pe' k') :
    After s u rest' (cs ++ cs') out' d' a' pe' (k + k') := by
  obtain ⟨q, r, rfl, _, _, h3⟩ := h
  obtain ⟨q', r', rfl, g1, g2, g3⟩ := g
  refine ⟨q', r', ?_, g1, g2, ?_⟩
  · simp [State.wires, State.withSeq, State.leaving]
  · rw [g3]; simp only [h3]; omega

theorem finish_eq (h : After s t rest cs out d a pe k) (r : CmdResult) :
    finish r t = ((s.leaving rest).wires cs out d).reply r (finalAck r (some a)) (finalParityError r pe) (s.res.attempts + k) := by
  obtain ⟨q, r', rfl, h1, h2, h3⟩ := h
  rw [finish_eq_reply]
  simp only [h1, h2, h3]
  rfl

end After

/-! ### One frame -/

theorem frame_read_after (q : Request) (a : BitVec 3) (w : Word32) (p : Bit) (rest : List Bit) (s : State)
    (hf : s.link.driving = s.dioOE) (hr : q.isRead = true) (hk : decodeAck s.par a = .ok)
    (ha : s.answers = wireBits a ++ (wireBits w ++ p :: rest)) :
    (frame q s).1 = readOutcome w p ∧
      After s (frame q s).2 rest (lead s ++ readFrame s.par q a w p) s.par.parkBit false .ok (decide (p ≠ parity32 w)) 0 := by
  rw [frame_read q a w p rest s hf hr hk ha]
  exact ⟨rfl, _, _, rfl, rfl, rfl, rfl⟩

theorem frame_write_after (q : Request) (a : BitVec 3) (rest : List Bit) (s : State)
    (hf : s.link.driving = s.dioOE) (hr : q.isRead = false) (hk : decodeAck s.par a = .ok)
    (ha : s.answers = wireBits a ++ rest) :
    (frame q s).1 = .ok ∧
      After s (frame q s).2 rest (lead s ++ writeFrame s.par q a) (restLevel s.par (parity32 q.data)) true .ok false 0 := by
  rw [frame_write q a rest s hf hr hk ha]
  exact ⟨rfl, _, _, rfl, rfl, rfl, rfl⟩

theorem frame_drain_after (q : Request) (a : BitVec 3) (rest : List Bit) (s : State)
    (hf : s.link.driving = s.dioOE) (hk : decodeAck s.par a ≠ .ok) (ha : s.answers = wireBits a ++ rest) :
    (frame q s).1 = outcomeOf (decodeAck s.par a) ∧
      After s (frame q s).2 rest (lead s ++ drainFrame s.par q a) (restLevel s.par s.par.drainPark) true (decodeAck s.par a)
        false 0 := by
  rw [frame_drain q a rest s hf hk ha]
  exact ⟨rfl, _, _, rfl, rfl, rfl, rfl⟩

/-- An attempt is a frame, counted (R170). -/
theorem attempt_after {q : Request} {s : State} {o : FrameOutcome} {rest : List Bit} {cs : List Cycle} {out : Bit} {d : Bool}
    {a : Ack} {pe : Bool} (h1 : (frame q s.countAttempt).1 = o) (h2 : After s.countAttempt (frame q s.countAttempt).2 rest cs out d a pe 0) :
    (attempt q s).1 = o ∧ After s (attempt q s).2 rest cs out d a pe 1 := by
  simp only [attempt]
  generalize frame q s.countAttempt = f at h1 h2 ⊢
  obtain ⟨q', r, e, g1, g2, g3⟩ := h2
  refine ⟨h1, { q' with attempt := f.2.seq.attempt + 1 }, r, ?_, g1, g2, g3⟩
  obtain ⟨o', t⟩ := f
  simp only at e ⊢
  subst e
  rfl

theorem lead_countAttempt (s : State) : lead s.countAttempt = lead s := rfl

/-! ### The abort write -/

/-- The abort write answered `OK` (R176). -/
theorem clearErrors_ok (a : BitVec 3) (rest : List Bit) (s : State) (hf : s.link.driving = s.dioOE)
    (hk : decodeAck s.par a = .ok) (ha : s.answers = wireBits a ++ rest) :
    (clearErrorsBody s).1 = .ok ∧
      After s (clearErrorsBody s).2 rest (lead s ++ writeFrame s.par (abortRequest s.par) a)
        (restLevel s.par (parity32 s.par.abortClear)) true .ok false 0 := by
  obtain ⟨h1, h2⟩ := frame_write_after (abortRequest s.par) a rest s hf rfl hk ha
  simp only [clearErrorsBody]
  exact ⟨by rw [h1]; rfl, h2⟩

/-- The abort write answered otherwise (R176). -/
theorem clearErrors_notOk (a : BitVec 3) (rest : List Bit) (s : State) (hf : s.link.driving = s.dioOE)
    (hk : decodeAck s.par a ≠ .ok) (ha : s.answers = wireBits a ++ rest) :
    (clearErrorsBody s).1 = abortResult (outcomeOf (decodeAck s.par a)) ∧
      After s (clearErrorsBody s).2 rest (lead s ++ drainFrame s.par (abortRequest s.par) a)
        (restLevel s.par s.par.drainPark) true (decodeAck s.par a) false 0 := by
  obtain ⟨h1, h2⟩ := frame_drain_after (abortRequest s.par) a rest s hf hk ha
  simp only [clearErrorsBody]
  exact ⟨by rw [h1], h2⟩

/-! ### One turn of the loop -/

/-- The acknowledgement on the response port after an attempt that leads to another. -/
def Setback.lastAck : Setback → Ack
  | .wait    => .wait
  | .cleared => .ok

theorem decodeAck_ok (par : Params) : decodeAck par par.ackOk = .ok := by simp [decodeAck]
theorem decodeAck_wait {par : Params} (h : AcksDistinct par) : decodeAck par par.ackWait = .wait := by
  simp [decodeAck, h.1.symm]
theorem decodeAck_fault {par : Params} (h : AcksDistinct par) : decodeAck par par.ackFault = .fault := by
  simp [decodeAck, h.2.1.symm, h.2.2.symm]

theorem turn_setback (q : Request) (b : Setback) (rest : List Bit) (s : State) (hd : AcksDistinct s.par)
    (hf : s.link.driving = s.dioOE) (ha : s.answers = b.answers s.par ++ rest) :
    (loopTurn q s).1 = .again b.outcome ∧
      After s (loopTurn q s).2 rest (lead s ++ b.cycles s.par q) (b.level s.par) true b.lastAck false 1 := by
  cases b with
  | wait =>
    have hw := decodeAck_wait hd
    obtain ⟨f1, f2⟩ := frame_drain_after q s.par.ackWait rest s.countAttempt hf (by show decodeAck s.par _ ≠ _; rw [hw]; simp) ha
    have hw' : decodeAck s.countAttempt.par s.par.ackWait = .wait := hw
    rw [hw'] at f1 f2
    obtain ⟨a1, a2⟩ := attempt_after f1 f2
    rw [loopTurn_wait q s a1]
    exact ⟨rfl, a2⟩
  | cleared =>
    have hw := decodeAck_fault hd
    simp only [Setback.answers, List.append_assoc] at ha
    obtain ⟨f1, f2⟩ := frame_drain_after q s.par.ackFault (wireBits s.par.ackOk ++ rest) s.countAttempt hf
      (by show decodeAck s.par _ ≠ _; rw [hw]; simp) ha
    have hw' : decodeAck s.countAttempt.par s.par.ackFault = .fault := hw
    rw [hw'] at f1 f2
    obtain ⟨a1, a2⟩ := attempt_after f1 f2
    have hp := a2.par
    obtain ⟨c1, c2⟩ := clearErrors_ok s.par.ackOk rest (attempt q s).2 a2.flag (by rw [hp]; exact decodeAck_ok _) a2.ans
    rw [loopTurn_fault q s a1 c1]
    refine ⟨rfl, ?_⟩
    have h := a2.trans c2
    rw [a2.lead_eq, hp] at h
    simpa [Setback.cycles, Setback.level, Setback.lastAck, lead_countAttempt, List.append_assoc] using h

theorem turn_read (q : Request) (a : BitVec 3) (w : Word32) (rest : List Bit) (s : State) (hr : q.isRead = true)
    (hk : decodeAck s.par a = .ok) (hf : s.link.driving = s.dioOE) (ha : s.answers = wireBits a ++ (wireBits w ++ parity32 w :: rest)) :
    (loopTurn q s).1 = .done (.okWord w) ∧
      After s (loopTurn q s).2 rest (lead s ++ readFrame s.par q a w (parity32 w)) s.par.parkBit false .ok false 1 := by
  obtain ⟨f1, f2⟩ := frame_read_after q a w (parity32 w) rest s.countAttempt hf hr hk ha
  simp only [readOutcome, if_true] at f1
  obtain ⟨a1, a2⟩ := attempt_after f1 f2
  rw [loopTurn_okData q w s a1]
  exact ⟨rfl, by simpa [lead_countAttempt] using a2⟩

theorem turn_write (q : Request) (a : BitVec 3) (rest : List Bit) (s : State) (hr : q.isRead = false)
    (hk : decodeAck s.par a = .ok) (hf : s.link.driving = s.dioOE) (ha : s.answers = wireBits a ++ rest) :
    (loopTurn q s).1 = .done .ok ∧
      After s (loopTurn q s).2 rest (lead s ++ writeFrame s.par q a) (restLevel s.par (parity32 q.data)) true .ok false 1 := by
  obtain ⟨f1, f2⟩ := frame_write_after q a rest s.countAttempt hf hr hk ha
  obtain ⟨a1, a2⟩ := attempt_after f1 f2
  rw [loopTurn_ok q s a1]
  exact ⟨rfl, a2⟩

theorem turn_badParity (q : Request) (a : BitVec 3) (w : Word32) (p : Bit) (rest : List Bit) (s : State) (hr : q.isRead = true)
    (hk : decodeAck s.par a = .ok) (hp : p ≠ parity32 w) (hf : s.link.driving = s.dioOE)
    (ha : s.answers = wireBits a ++ (wireBits w ++ p :: rest)) :
    (loopTurn q s).1 = loopTurn.nonretry s.par .parityError ∧
      After s (loopTurn q s).2 rest (lead s ++ readFrame s.par q a w p) s.par.parkBit false .ok true 1 := by
  obtain ⟨f1, f2⟩ := frame_read_after q a w p rest s.countAttempt hf hr hk ha
  simp only [readOutcome, hp, if_false] at f1
  obtain ⟨a1, a2⟩ := attempt_after f1 f2
  rw [loopTurn_parityError q s a1]
  exact ⟨rfl, by simpa [hp, lead_countAttempt] using a2⟩

theorem turn_badAck (q : Request) (a : BitVec 3) (rest : List Bit) (s : State)
    (hk : decodeAck s.par a = .protocolError) (hf : s.link.driving = s.dioOE) (ha : s.answers = wireBits a ++ rest) :
    (loopTurn q s).1 = loopTurn.nonretry s.par .protocolError ∧
      After s (loopTurn q s).2 rest (lead s ++ drainFrame s.par q a) (restLevel s.par s.par.drainPark) true .protocolError false 1 := by
  obtain ⟨f1, f2⟩ := frame_drain_after q a rest s.countAttempt hf (by show decodeAck s.par a ≠ _; rw [hk]; simp) ha
  have hk' : decodeAck s.countAttempt.par a = .protocolError := hk
  rw [hk'] at f1 f2
  obtain ⟨a1, a2⟩ := attempt_after f1 f2
  rw [loopTurn_protocolError q s a1]
  exact ⟨rfl, a2⟩

theorem abortResult_err {a : Ack} (h : a ≠ .ok) : ∃ c, abortResult (outcomeOf a) = .err c (some (outcomeOf a)) := by
  cases a <;> simp_all [outcomeOf, abortResult]

theorem turn_abortFails (q : Request) (b : BitVec 3) (rest : List Bit) (s : State) (hd : AcksDistinct s.par)
    (hk : decodeAck s.par b ≠ .ok) (hf : s.link.driving = s.dioOE)
    (ha : s.answers = wireBits s.par.ackFault ++ (wireBits b ++ rest)) :
    (loopTurn q s).1 = .done (abortResult (outcomeOf (decodeAck s.par b))) ∧
      After s (loopTurn q s).2 rest
        (lead s ++ (drainFrame s.par q s.par.ackFault ++ drainFrame s.par (abortRequest s.par) b))
        (restLevel s.par s.par.drainPark) true (decodeAck s.par b) false 1 := by
  have hw := decodeAck_fault hd
  obtain ⟨f1, f2⟩ := frame_drain_after q s.par.ackFault (wireBits b ++ rest) s.countAttempt hf
    (by show decodeAck s.par _ ≠ _; rw [hw]; simp) ha
  have hw' : decodeAck s.countAttempt.par s.par.ackFault = .fault := hw
  rw [hw'] at f1 f2
  obtain ⟨a1, a2⟩ := attempt_after f1 f2
  have hp := a2.par
  obtain ⟨c1, c2⟩ := clearErrors_notOk b rest (attempt q s).2 a2.flag (by rw [hp]; exact hk) a2.ans
  rw [hp] at c1
  obtain ⟨c, hc⟩ := abortResult_err hk
  rw [loopTurn_fault_err q c _ s a1 (c1.trans hc), hc]
  refine ⟨rfl, ?_⟩
  have h := a2.trans c2
  rw [a2.lead_eq, hp] at h
  simpa [lead_countAttempt, List.append_assoc] using h

/-! ### Runs of failed attempts -/

/-- The acknowledgement on the response port after a failed attempt. -/
def Failure.lastAck : Failure → Ack
  | .setback b => b.lastAck
  | .invalid _ => .protocolError
  | .corrupt _ => .ok

/-- A failed attempt that does not end the loop leads to another (Table RM, R178, R179). -/
theorem turn_failure (q : Request) (f : Failure) (rest : List Bit) (s : State) (hr : f.retried s.par q)
    (hf : s.link.driving = s.dioOE) (ha : s.answers = f.answers s.par ++ rest) :
    (loopTurn q s).1 = .again f.outcome ∧
      After s (loopTurn q s).2 rest (lead s ++ f.cycles s.par q) (f.level s.par) (drivesAfter f.outcome) f.lastAck
        (f.outcome == .parityError) 1 := by
  cases f with
  | setback b =>
    have h := turn_setback q b rest s hr hf ha
    cases b <;> exact h
  | invalid a =>
    obtain ⟨h1, h2⟩ := turn_badAck q a rest s hr.2 hf ha
    exact ⟨by rw [h1]; simp [loopTurn.nonretry, hr.1, Failure.outcome], h2⟩
  | corrupt w =>
    obtain ⟨h1, h2⟩ := turn_badParity q s.par.ackOk w (!parity32 w) rest s hr.2 (decodeAck_ok _) (by simp) hf
      (by rw [ha]; simp [Failure.answers])
    exact ⟨by rw [h1]; simp [loopTurn.nonretry, hr.1, Failure.outcome], h2⟩

/-- Whatever the turn that ends the loop is, a run of failed attempts comes before it (R170). -/
theorem retryLoop_history {q : Request} {par : Params} {r : CmdResult} {ea rest : List Bit} {F : List Cycle} {out : Bit} {d : Bool}
    {a : Ack} {pe : Bool}
    (hT : ∀ s : State, s.par = par → s.link.driving = s.dioOE → s.answers = ea ++ rest →
      (loopTurn q s).1 = .done r ∧ After s (loopTurn q s).2 rest (lead s ++ F) out d a pe 1)
    (fs : List Failure) (hr : ∀ f ∈ fs, f.retried par q) (n : Nat) (hn : fs.length < n) (last : Option FrameOutcome) (s : State)
    (hp : s.par = par) (hf : s.link.driving = s.dioOE) (ha : s.answers = failureAnswers par fs ++ (ea ++ rest)) :
    (retryLoop q n last s).1 = r ∧
      After s (retryLoop q n last s).2 rest (lead s ++ (failureCycles par q fs ++ F)) out d a pe (fs.length + 1) := by
  obtain ⟨n, rfl⟩ : ∃ m, n = m + 1 := ⟨n - 1, by omega⟩
  induction fs generalizing n last s with
  | nil =>
    obtain ⟨t1, t2⟩ := hT s hp hf ha
    rw [retryLoop_done q n last r s t1]
    exact ⟨rfl, t2⟩
  | cons f fs ih =>
    simp only [failureAnswers, List.flatMap_cons, List.append_assoc] at ha
    subst hp
    obtain ⟨t1, t2⟩ := turn_failure q f _ s (hr f (by simp)) hf ha
    rw [retryLoop_again q n last f.outcome s t1]
    simp only [List.length_cons] at hn
    obtain ⟨m, rfl⟩ : ∃ m, n = m + 1 := ⟨n - 1, by omega⟩
    obtain ⟨i1, i2⟩ := ih (fun g hg => hr g (by simp [hg])) (some f.outcome) (loopTurn q s).2 t2.par t2.flag t2.ans m (by omega)
    refine ⟨i1, ?_⟩
    have g := t2.trans i2
    rw [t2.lead_eq] at g
    simpa [failureCycles, Failure.handBack, List.append_assoc, Nat.add_comm, Nat.add_left_comm] using g

/-- The loop that never gets further than failed attempts: it makes every attempt it has and times out (R177 to R179). -/
theorem retryLoop_exhausted (q : Request) (fs : List Failure) (f : Failure) (rest : List Bit) (last : Option FrameOutcome) (s : State)
    (hr : ∀ g ∈ fs ++ [f], g.retried s.par q) (hf : s.link.driving = s.dioOE)
    (ha : s.answers = failureAnswers s.par (fs ++ [f]) ++ rest) :
    (retryLoop q (fs.length + 1) last s).1 = .err .protocolTimeout (some f.outcome) ∧
      After s (retryLoop q (fs.length + 1) last s).2 rest (lead s ++ (failureCycles s.par q fs ++ f.cycles s.par q)) (f.level s.par)
        (drivesAfter f.outcome) f.lastAck (f.outcome == .parityError) (fs.length + 1) := by
  induction fs generalizing last s with
  | nil =>
    simp only [List.nil_append, failureAnswers, List.flatMap_cons, List.flatMap_nil, List.append_nil] at ha
    obtain ⟨t1, t2⟩ := turn_failure q f rest s (hr f (by simp)) hf ha
    rw [List.length_nil, retryLoop_again q 0 last f.outcome s t1]
    exact ⟨rfl, by simpa [failureCycles, retryLoop] using t2⟩
  | cons c fs ih =>
    simp only [List.cons_append, failureAnswers, List.flatMap_cons, List.append_assoc] at ha
    obtain ⟨t1, t2⟩ := turn_failure q c _ s (hr c (by simp)) hf ha
    rw [List.length_cons, retryLoop_again q _ last c.outcome s t1]
    have hp := t2.par
    obtain ⟨i1, i2⟩ := ih (some c.outcome) (loopTurn q s).2 (by rw [hp]; exact fun g hg => hr g (by simp at hg ⊢; tauto)) t2.flag
      (by rw [hp]; exact t2.ans)
    refine ⟨i1, ?_⟩
    rw [hp] at i2
    have g := t2.trans i2
    rw [t2.lead_eq] at g
    simpa [failureCycles, Failure.handBack, List.append_assoc, Nat.add_comm, Nat.add_left_comm] using g

/-! ### Runs of setbacks are runs of failures -/

theorem failureAnswers_setbacks (par : Params) (h : List Setback) :
    failureAnswers par (h.map .setback) = setbackAnswers par h := by
  simp only [failureAnswers, setbackAnswers, List.flatMap_map]; rfl

theorem failureCycles_setbacks (par : Params) (q : Request) (h : List Setback) :
    failureCycles par q (h.map .setback) = setbackCycles par q h := by
  simp only [failureCycles, setbackCycles, List.flatMap_map]
  congr 1; funext b
  cases b <;> exact List.append_nil _

theorem retried_setbacks {par : Params} (hd : AcksDistinct par) (q : Request) (h : List Setback) :
    ∀ f ∈ h.map Failure.setback, f.retried par q := by
  simp only [List.mem_map]; rintro f ⟨b, _, rfl⟩; exact hd

end Sys2Proof.Machine
end

