-- ==== Sys2Proof/Laws/Commands.lean ====
section
/-! SUPPORT. The register commands as runs of `retry` between the entry sequence and the return (40_bitlink_primitives.md R109,
43_register_access.md R172 to R175), and how such a run ends on a scripted target. -/

namespace Sys2Proof.Machine

/-- The return of a command whose body has run from `begin s`. -/
theorem After.returns {s : State} {r : CmdResult} {rest : List Bit} {cs : List Cycle} {out d : Bool} {a : Ack} {pe : Bool} {k : Nat}
    {x : CmdResult × State} (h1 : x.1 = r) (h : After (begin s) x.2 rest cs out d a pe k) :
    finish x.1 x.2 = ((s.leaving rest).wires cs out d).reply r (finalAck r (some a)) (finalParityError r pe) k := by
  rw [h1, h.finish_eq r]
  show State.reply _ _ _ _ (0 + k) = _
  rw [Nat.zero_add]; rfl

/-- A command that is one retry loop (R172, R173, R175). -/
theorem exec_loop (i : Instr) (q : Request) (s : State) (hi : s.link.initialized = true) (hq : loopRequest i = some q)
    (hal : aligned q.addr = true) :
    exec i s = .next (finish (retry q (begin (s.issued i))).1 (retry q (begin (s.issued i))).2) := by
  cases i with
  | dpRead addr =>
    cases hq
    simp only [exec, execDpRead, hal]
    rw [runCommand_runs _ (s.latchAddr addr) hi]; rfl
  | dpWrite addr data =>
    cases hq
    simp only [exec, execDpWrite, hal]
    rw [runCommand_runs _ (s.latchWrite addr data) hi]; rfl
  | apWrite addr data =>
    cases hq
    simp only [exec, execApWrite, hal]
    rw [runCommand_runs _ (s.latchWrite addr data) hi]; rfl
  | _ => cases hq

/-- `apRead` (R174). -/
theorem exec_apRead (addr : Addr) (s : State) (hi : s.link.initialized = true) (hal : aligned addr = true) :
    exec (.apRead addr) s = .next (finish (apReadBody (begin (s.latchAddr addr))).1 (apReadBody (begin (s.latchAddr addr))).2) := by
  simp only [exec, execApRead, hal]
  rw [runCommand_runs _ (s.latchAddr addr) hi]

theorem apReadBody_err (s : State) (e : ErrorClass) (i : Option FrameOutcome) (h : (retry (apReadRequest s.op.addr) s).1 = .err e i) :
    apReadBody s = (.err e i, (retry (apReadRequest s.op.addr) s).2) := by
  simp only [apReadRequest] at h ⊢
  simp only [apReadBody, h]

theorem apReadBody_word (s : State) (w : Word32) (h : (retry (apReadRequest s.op.addr) s).1 = .okWord w) :
    apReadBody s = retry (rdbuffRequest (retry (apReadRequest s.op.addr) s).2.par) (retry (apReadRequest s.op.addr) s).2 := by
  simp only [apReadRequest] at h ⊢
  simp only [apReadBody, h]

theorem retry_after {q : Request} {s : State} {r : CmdResult} {rest : List Bit} {cs : List Cycle} {out d : Bool} {a : Ack} {pe : Bool}
    {k : Nat} (h : (retryLoop q s.par.retryBound none (s.setAttempt 0)).1 = r ∧
      After (s.setAttempt 0) (retryLoop q s.par.retryBound none (s.setAttempt 0)).2 rest cs out d a pe k) :
    (retry q s).1 = r ∧ After s (retry q s).2 rest cs out d a pe k := by
  simp only [retry]
  obtain ⟨h1, q', r', h2, h3⟩ := h
  exact ⟨h1, q', r', h2, h3⟩

/-! ### Whole runs -/

section runs

variable (q : Request) (fs : List Failure) (rest : List Bit) (s : State) (hr : ∀ f ∈ fs, f.retried s.par q)
  (hf : s.link.driving = s.dioOE)

include hr hf

/-- Failed attempts, and then a read answered `OK` with the right parity. -/
theorem retry_reads (w : Word32) (hq : q.isRead = true) (hn : fs.length < s.par.retryBound)
    (ha : s.answers = failureAnswers s.par fs ++ (wireBits s.par.ackOk ++ (wireBits w ++ parity32 w :: rest))) :
    (retry q s).1 = .okWord w ∧ After s (retry q s).2 rest
      (lead s ++ (failureCycles s.par q fs ++ readFrame s.par q s.par.ackOk w (parity32 w))) s.par.parkBit false .ok false
      (fs.length + 1) :=
  retry_after (retryLoop_history (ea := wireBits s.par.ackOk ++ (wireBits w ++ [parity32 w]))
    (fun t hp hft hta => by
      have e := turn_read q s.par.ackOk w rest t hq (by rw [hp]; exact decodeAck_ok _) hft (by rw [hta]; simp)
      rwa [hp] at e) fs hr s.par.retryBound hn none (s.setAttempt 0) rfl hf (by show s.answers = _; rw [ha]; simp))

/-- Failed attempts, and then a write answered `OK`. -/
theorem retry_writes (hq : q.isRead = false) (hn : fs.length < s.par.retryBound)
    (ha : s.answers = failureAnswers s.par fs ++ (wireBits s.par.ackOk ++ rest)) :
    (retry q s).1 = .ok ∧ After s (retry q s).2 rest
      (lead s ++ (failureCycles s.par q fs ++ writeFrame s.par q s.par.ackOk)) (restLevel s.par (parity32 q.data)) true .ok false
      (fs.length + 1) :=
  retry_after (retryLoop_history (ea := wireBits s.par.ackOk)
    (fun t hp hft hta => by
      have e := turn_write q s.par.ackOk rest t hq (by rw [hp]; exact decodeAck_ok _) hft hta
      rwa [hp] at e) fs hr s.par.retryBound hn none (s.setAttempt 0) rfl hf ha)

/-- Failed attempts, and then an abort write that is not acknowledged `OK`. -/
theorem retry_abortFails (b : BitVec 3) (hd : AcksDistinct s.par) (hk : decodeAck s.par b ≠ .ok) (hn : fs.length < s.par.retryBound)
    (ha : s.answers = failureAnswers s.par fs ++ (wireBits s.par.ackFault ++ (wireBits b ++ rest))) :
    (retry q s).1 = abortResult (outcomeOf (decodeAck s.par b)) ∧ After s (retry q s).2 rest
      (lead s ++ (failureCycles s.par q fs ++ (drainFrame s.par q s.par.ackFault ++ drainFrame s.par (abortRequest s.par) b)))
      (restLevel s.par s.par.drainPark) true (decodeAck s.par b) false (fs.length + 1) :=
  retry_after (retryLoop_history (ea := wireBits s.par.ackFault ++ wireBits b)
    (fun t hp hft hta => by
      have e := turn_abortFails q b rest t (by rw [hp]; exact hd) (by rw [hp]; exact hk) hft (by rw [hta, hp]; simp)
      rwa [hp] at e) fs hr s.par.retryBound hn none (s.setAttempt 0) rfl hf (by show s.answers = _; rw [ha]; simp))

/-- Failed attempts, and then an invalid acknowledgement under `fail_fast`. -/
theorem retry_badAck (a : BitVec 3) (hpol : s.par.nonretryPolicy = .failFast) (hk : decodeAck s.par a = .protocolError)
    (hn : fs.length < s.par.retryBound) (ha : s.answers = failureAnswers s.par fs ++ (wireBits a ++ rest)) :
    (retry q s).1 = .err .protocolFault (some .protocolError) ∧ After s (retry q s).2 rest
      (lead s ++ (failureCycles s.par q fs ++ drainFrame s.par q a)) (restLevel s.par s.par.drainPark) true .protocolError false
      (fs.length + 1) :=
  retry_after (retryLoop_history (ea := wireBits a)
    (fun t hp hft hta => by
      have e := turn_badAck q a rest t (by rw [hp]; exact hk) hft hta
      rw [hp] at e
      simpa [loopTurn.nonretry, hpol] using e) fs hr s.par.retryBound hn none (s.setAttempt 0) rfl hf ha)

/-- Failed attempts, and then a parity error under `fail_fast`. -/
theorem retry_badParity (w : Word32) (p : Bit) (hq : q.isRead = true) (hp' : p ≠ parity32 w)
    (hpol : s.par.nonretryPolicy = .failFast) (hn : fs.length < s.par.retryBound)
    (ha : s.answers = failureAnswers s.par fs ++ (wireBits s.par.ackOk ++ (wireBits w ++ p :: rest))) :
    (retry q s).1 = .err .protocolFault (some .parityError) ∧ After s (retry q s).2 rest
      (lead s ++ (failureCycles s.par q fs ++ readFrame s.par q s.par.ackOk w p)) s.par.parkBit false .ok true (fs.length + 1) :=
  retry_after (retryLoop_history (ea := wireBits s.par.ackOk ++ (wireBits w ++ [p]))
    (fun t hp hft hta => by
      have e := turn_badParity q s.par.ackOk w p rest t hq (by rw [hp]; exact decodeAck_ok _) hp' hft (by rw [hta]; simp)
      rw [hp] at e
      simpa [loopTurn.nonretry, hpol] using e) fs hr s.par.retryBound hn none (s.setAttempt 0) rfl hf
      (by show s.answers = _; rw [ha]; simp))

end runs

/-- Failed attempts until the budget is spent. -/
theorem retry_exhausts (q : Request) (fs : List Failure) (f : Failure) (rest : List Bit) (s : State)
    (hr : ∀ g ∈ fs ++ [f], g.retried s.par q) (hf : s.link.driving = s.dioOE) (hn : fs.length + 1 = s.par.retryBound)
    (ha : s.answers = failureAnswers s.par (fs ++ [f]) ++ rest) :
    (retry q s).1 = .err .protocolTimeout (some f.outcome) ∧ After s (retry q s).2 rest
      (lead s ++ (failureCycles s.par q fs ++ f.cycles s.par q)) (f.level s.par) (drivesAfter f.outcome) f.lastAck
      (f.outcome == .parityError) s.par.retryBound := by
  apply retry_after
  rw [← hn]
  exact retryLoop_exhausted q fs f rest none (s.setAttempt 0) hr hf ha

/-! ### The commands around such a run -/

/-- Issuing an instruction writes operand registers and nothing that a loop reads (10_state.md R30). -/
theorem issued_frame (i : Instr) (s : State) :
    (s.issued i).par = s.par ∧ (s.issued i).answers = s.answers ∧ (s.issued i).link = s.link ∧ (s.issued i).dioOE = s.dioOE ∧
      lead (begin (s.issued i)) = lead s := by
  cases i <;> exact ⟨rfl, rfl, rfl, rfl, rfl⟩

/-- A command whose first loop returns an error returns it (R172 to R175). -/
theorem exec_firstLoop_err {i : Instr} {q : Request} {s : State} (hi : s.link.initialized = true) (hq : LoopsOn i q)
    (hal : aligned q.addr = true) {e : ErrorClass} {o : Option FrameOutcome} (h : (retry q (begin (s.issued i))).1 = .err e o) :
    exec i s = .next (finish (retry q (begin (s.issued i))).1 (retry q (begin (s.issued i))).2) := by
  rcases hq with hq | ⟨addr, rfl, rfl⟩
  · rw [exec_loop i q s hi hq hal]
  · have e1 := exec_apRead addr s hi hal
    rw [e1, apReadBody_err (begin (s.latchAddr addr)) e o h, h]; rfl

/-- `apRead` whose first loop succeeds runs the second on the read-buffer register, with the line released (R174). -/
theorem exec_apRead_second {addr : Addr} {fs : List Failure} {stale : Word32} {rest : List Bit} {s : State}
    (hr : Ready s) (hp : Posted s.par addr fs) (ha : s.answers = postedAnswers s.par fs stale ++ rest) :
    ∃ t, After (begin (s.latchAddr addr)) t rest
        (lead s ++ (failureCycles s.par (apReadRequest addr) fs
          ++ readFrame s.par (apReadRequest addr) s.par.ackOk stale (parity32 stale))) s.par.parkBit false .ok false (fs.length + 1) ∧
      exec (.apRead addr) s = .next (finish (retry (rdbuffRequest s.par) t).1 (retry (rdbuffRequest s.par) t).2) := by
  obtain ⟨hal, hn, hf⟩ := hp
  have hpar : (begin (s.latchAddr addr)).par = s.par := rfl
  obtain ⟨h1, h2⟩ := retry_reads (apReadRequest addr) fs rest (begin (s.latchAddr addr)) hf hr.flagIsDriver stale rfl hn
    (by show s.answers = _; rw [ha, hpar]; simp [postedAnswers])
  refine ⟨_, h2, ?_⟩
  have hq : (retry (apReadRequest (begin (s.latchAddr addr)).op.addr) (begin (s.latchAddr addr))).2.par = s.par := h2.par
  rw [exec_apRead addr s hr.initialized hal, apReadBody_word (begin (s.latchAddr addr)) stale h1, hq]
  rfl

end Sys2Proof.Machine
end

