-- ==== Sys2Proof/Laws/Exec.lean ====
section
/-! SUPPORT. Everything an instruction can do, said once (the entry sequence of 40_bitlink_primitives.md R109, then a bounded run of wire
activity, or NRESET, or the `connected` flag), and the direction a retry loop leaves the line in. -/

namespace Sys2Proof.Machine

theorem lead_length_eq (s : State) : (lead s).length = leadCycles s := by
  unfold lead leadCycles; split <;> simp

/-- The attempts an instruction can count (R33, R174). -/
def maxAttempts (s : State) : Instr → Nat
  | .dpRead _    => s.par.retryBound
  | .dpWrite _ _ => s.par.retryBound
  | .apRead _    => 2 * s.par.retryBound
  | .apWrite _ _ => s.par.retryBound
  | .init | .clockPulse | .driveLine _ | .releaseLine | .readLine | .setResetPin _ | .setConnected _ | .lineReset
  | .switchSequence | .dormantWake | .dormantEnter | .transfer _ _ _ _ | .clearErrors | .reserved17 | .reserved18 | .reserved19
  | .reserved20 | .reserved21 | .reserved22 | .reserved23 | .reserved24 | .reserved25 | .reserved26 | .reserved27 | .reserved28
  | .reserved29 | .reserved30 | .reserved31 | .reqDpW0 | .reqDpW4 | .reqDpW8 | .reqDpWC | .reqDpR0 | .reqDpR4 | .reqDpR8
  | .reqDpRC | .reqApW0 | .reqApW4 | .reqApW8 | .reqApWC | .reqApR0 | .reqApR4 | .reqApR8 | .reqApRC | .ackProtocolError000
  | .ackOk | .ackWait | .ackProtocolError011 | .ackFault | .ackProtocolError101 | .ackProtocolError110 | .ackProtocolError111
  | .jtagToSwd | .selectionAlert | .activationCode | .toDormant => 0

/-- The results a body can have: no body returns `InvalidArgument`, `InvalidState` or a class of the layers above (Table EC). -/
def CmdResult.fromBody : CmdResult → Prop
  | .err c _ => c = .protocolTimeout ∨ c = .protocolFault
  | _        => True

theorem CmdResult.fromBody_of_fromLoop {r : CmdResult} (h : r.fromLoop) : r.fromBody := by
  cases r <;> trivial

/-- What the body of instruction `i` makes of the state `u` it starts from. -/
inductive BodyRun (i : Instr) (u : State) : CmdResult × State → Prop
  | wire (r : CmdResult) (t : State) (hr : r.fromBody) (h : WireStep (maxCycles u i) (maxAttempts u i) u t) : BodyRun i u (r, t)
  | reset (b : Bit) (hi : i = .setResetPin b) (hp : u.cfg.pinRst ≠ none) : BodyRun i u (.ok, driveReset b u)
  | connected (b : Bit) (hi : i = .setConnected b) : BodyRun i u (.ok, setConnectedFlag b u)

theorem BodyRun.of_wire {i : Instr} {u : State} {x : CmdResult × State} (hr : x.1.fromBody)
    (h : WireStep (maxCycles u i) (maxAttempts u i) u x.2) : BodyRun i u x := .wire x.1 x.2 hr h

/-- The argument check of an instruction (R109, Table EC): `false` when it fails. -/
def argumentsOk (s : State) : Instr → Bool
  | .setResetPin _      => s.cfg.pinRst.isSome
  | .transfer a _ _ _   => aligned a
  | .dpRead a           => aligned a
  | .dpWrite a _        => aligned a
  | .apRead a           => aligned a
  | .apWrite a _        => aligned a
  | .init | .clockPulse | .driveLine _ | .releaseLine | .readLine | .setConnected _ | .lineReset | .switchSequence
  | .dormantWake | .dormantEnter | .clearErrors | .reserved17 | .reserved18 | .reserved19 | .reserved20 | .reserved21
  | .reserved22 | .reserved23 | .reserved24 | .reserved25 | .reserved26 | .reserved27 | .reserved28 | .reserved29 | .reserved30
  | .reserved31 | .reqDpW0 | .reqDpW4 | .reqDpW8 | .reqDpWC | .reqDpR0 | .reqDpR4 | .reqDpR8 | .reqDpRC | .reqApW0 | .reqApW4
  | .reqApW8 | .reqApWC | .reqApR0 | .reqApR4 | .reqApR8 | .reqApRC | .ackProtocolError000 | .ackOk | .ackWait
  | .ackProtocolError011 | .ackFault | .ackProtocolError101 | .ackProtocolError110 | .ackProtocolError111 | .jtagToSwd
  | .selectionAlert | .activationCode | .toDormant => true

theorem retry_run {i : Instr} {q : Request} {u : State} (hc : maxCycles u i = leadCycles u + 2 * u.par.retryBound * frameCycles u.par)
    (ha : maxAttempts u i = u.par.retryBound) : BodyRun i u (retry q u) := by
  obtain ⟨h1, h2, _⟩ := retry_wire q u
  exact .of_wire (CmdResult.fromBody_of_fromLoop h2) (by rw [hc, ha]; exact h1)

theorem retry_read_result (q : Request) (s : State) (hr : q.isRead = true) :
    (∃ w, (retry q s).1 = .okWord w) ∨ ∃ e i, (retry q s).1 = .err e i ∧ (e = .protocolTimeout ∨ e = .protocolFault) := by
  have h1 := (retryLoop_kind q s.par.retryBound none (s.setAttempt 0)).1 hr
  have h2 := (retry_wire q s).2.1
  simp only [retry] at h2 ⊢
  generalize (retryLoop q s.par.retryBound none (s.setAttempt 0)).1 = r at h1 h2 ⊢
  cases r with
  | ok => exact absurd rfl h1
  | okWord w => exact .inl ⟨w, rfl⟩
  | okBit b => exact absurd h2 (by simp [CmdResult.fromLoop])
  | okOutcome o => exact absurd h2 (by simp [CmdResult.fromLoop])
  | err e i => exact .inr ⟨e, i, rfl, h2⟩

theorem apRead_run (addr : Addr) (u : State) : BodyRun (.apRead addr) u (apReadBody u) := by
  obtain ⟨w1, _, w3⟩ := retry_wire (apReadRequest u.op.addr) u
  rcases retry_read_result (apReadRequest u.op.addr) u rfl with ⟨w, hw⟩ | ⟨e, i, he, hei⟩
  · rw [apReadBody_word u w hw]
    have g := w3 w hw
    obtain ⟨v1, v2, _⟩ := retry_wire (rdbuffRequest (retry (apReadRequest u.op.addr) u).2.par) (retry (apReadRequest u.op.addr) u).2
    have hp := g.control.par
    have hl := leadCycles_le (retry (apReadRequest u.op.addr) u).2
    rw [hp] at v1 v2 hl
    rw [hp]
    have k := g.trans v1
    generalize retry (rdbuffRequest u.par) (retry (apReadRequest u.op.addr) u).2 = x at k v2 ⊢
    exact .of_wire (CmdResult.fromBody_of_fromLoop v2) (k.mono (by simp only [maxCycles, lead_length_eq]; omega)
      (by simp only [maxAttempts]; omega))
  · rw [apReadBody_err u e i he]
    have g : WireStep (maxCycles u (.apRead addr)) (maxAttempts u (.apRead addr)) u (retry (apReadRequest u.op.addr) u).2 := by
      refine w1.mono ?_ ?_
      · simp only [maxCycles, lead_length_eq]
        have : 2 * u.par.retryBound * frameCycles u.par ≤ 2 * (u.par.retryBound - 1) * frameCycles u.par + 2 * u.par.retryBound * frameCycles u.par :=
          Nat.le_add_left _ _
        omega
      · simp only [maxAttempts]; omega
    exact .wire (.err e i) (retry (apReadRequest u.op.addr) u).2 hei g

theorem header_run {i : Instr} {u : State} (h : BitVec 8) (hc : maxCycles u i = (lead u).length + 8) (ha : maxAttempts u i = 0) :
    BodyRun i u (.ok, sendHeader h u) := by
  have w := sendHeader_wire h u
  rw [← lead_length_eq, ← hc, ← ha] at w
  generalize sendHeader h u = t at w ⊢
  exact .wire _ _ trivial w

theorem ack_run {i : Instr} {u : State} (a : BitVec 3) (hc : maxCycles u i = u.par.trn + 3) (ha : maxAttempts u i = 0) :
    BodyRun i u (.ok, (receiveAck { u with answers := wireBits a ++ u.answers }).2) := by
  have h0 : WireStep 0 0 u { u with answers := wireBits a ++ u.answers } :=
    ⟨⟨rfl, rfl, rfl, rfl, rfl, rfl, rfl, rfl⟩, rfl, id, id, ⟨[], by simp, by simp⟩, by simp⟩
  have h1 := receiveAck_wire { u with answers := wireBits a ++ u.answers }
  have ht : turnCycles { u with answers := wireBits a ++ u.answers } ≤ u.par.trn := by
    unfold turnCycles; split <;> simp
  have w : WireStep (maxCycles u i) (maxAttempts u i) u (receiveAck { u with answers := wireBits a ++ u.answers }).2 :=
    (h0.trans h1).mono (by rw [hc]; omega) (by omega)
  generalize (receiveAck { u with answers := wireBits a ++ u.answers }).2 = t at w ⊢
  exact .wire _ _ trivial w

theorem constant_run {i : Instr} {u : State} {w : Nat} (v : BitVec w) (hc : maxCycles u i = (lead u).length + w)
    (ha : maxAttempts u i = 0) : BodyRun i u (.ok, writeBits v (ensureDriving u)) := by
  have w := (ensureDriving_wire u).trans (writeBits_wire v (ensureDriving u))
  rw [← lead_length_eq, ← hc, Nat.add_zero, ← ha] at w
  generalize writeBits v (ensureDriving u) = t at w ⊢
  exact .wire _ _ trivial w

theorem lineResetBody_wire (s : State) : WireStep (s.par.lineResetHigh + s.par.lineResetIdle) 0 s (lineResetBody s) :=
  ((cycles_wire true s.par.lineResetHigh s).trans (cycles_wire false s.par.lineResetIdle _)).mono (by omega) (by omega)

theorem lineResetBody_wire_of {s : State} {par : Params} (h : s.par = par) :
    WireStep (par.lineResetHigh + par.lineResetIdle) 0 s (lineResetBody s) := by
  subst h; exact lineResetBody_wire s

theorem lineResetWires_wire (s : State) : WireStep (leadCycles s + s.par.lineResetHigh + s.par.lineResetIdle) 0 s (lineResetWires s) := by
  have h1 := ensureDriving_wire s
  exact (h1.trans (lineResetBody_wire_of h1.control.par)).mono (by omega) (by omega)

theorem switchWires_wire (s : State) :
    WireStep (leadCycles s + 16 + s.par.lineResetHigh + s.par.lineResetIdle) 0 s (switchWires s) := by
  have h1 := (ensureDriving_wire s).trans (writeBits_wire s.par.jtagToSwd (ensureDriving s))
  exact (h1.trans (lineResetBody_wire_of h1.control.par)).mono (by omega) (by omega)

theorem wakeWires_wire (s : State) :
    WireStep (leadCycles s + s.par.wakePreCycles + 128 + s.par.wakeGapCycles + 8 + s.par.lineResetHigh + s.par.lineResetIdle) 0 s
      (wakeWires s) := by
  have h1 := (ensureDriving_wire s).trans (cycles_wire s.par.wakePreLevel s.par.wakePreCycles (ensureDriving s))
  simp only [wakeWires]
  generalize cycles s.par.wakePreLevel s.par.wakePreCycles (ensureDriving s) = a at h1 ⊢
  have h2 := (h1.trans (writeBits_wire s.par.selectionAlert a)).trans
    (cycles_wire s.par.wakeGapLevel s.par.wakeGapCycles (writeBits s.par.selectionAlert a))
  generalize cycles s.par.wakeGapLevel s.par.wakeGapCycles (writeBits s.par.selectionAlert a) = b at h2 ⊢
  have h3 := h2.trans (writeBits_wire s.par.activationCode b)
  exact (h3.trans (lineResetBody_wire_of h3.control.par)).mono (by omega) (by omega)

theorem dormantWires_wire (s : State) : WireStep (leadCycles s + s.par.discHigh + 16) 0 s (dormantWires s) :=
  ((ensureDriving_wire s).trans (cycles_wire true s.par.discHigh (ensureDriving s))).trans (writeBits_wire s.par.toDormant _)

/-- A body that is wire activity and succeeds. -/
theorem wire_run {i : Instr} {u t : State} {n : Nat} (hc : maxCycles u i = n) (ha : maxAttempts u i = 0) (h : WireStep n 0 u t) :
    BodyRun i u (.ok, t) := .wire .ok t trivial (by rw [hc, ha]; exact h)

theorem lineReset_run (u : State) : BodyRun .lineReset u (.ok, lineResetWires u) :=
  wire_run (by simp only [maxCycles, lead_length_eq]) rfl (lineResetWires_wire u)

theorem switchSequence_run (u : State) : BodyRun .switchSequence u (.ok, switchWires u) :=
  wire_run (by simp only [maxCycles, lead_length_eq]) rfl (switchWires_wire u)

theorem dormantWake_run (u : State) : BodyRun .dormantWake u (.ok, wakeWires u) :=
  wire_run (by simp only [maxCycles, lead_length_eq]) rfl (wakeWires_wire u)

theorem dormantEnter_run (u : State) : BodyRun .dormantEnter u (.ok, dormantWires u) :=
  wire_run (by simp only [maxCycles, lead_length_eq]) rfl (dormantWires_wire u)

theorem transfer_run (a : Addr) (p r : Bit) (d : Word32) (u : State) : BodyRun (.transfer a p r d) u (transferBody u) := by
  have w := frame_bound u.request u
  simp only [transferBody]
  generalize frame u.request u = f at w ⊢
  exact .wire (.okOutcome f.1) f.2 trivial (by simp only [maxCycles, lead_length_eq]; exact w)

theorem clearErrors_run (u : State) : BodyRun .clearErrors u (clearErrorsBody u) := by
  have w := frame_bound (abortRequest u.par) u
  have h : ∀ o, (abortResult o).fromBody := by
    intro o; cases o <;> simp [abortResult, CmdResult.fromBody]
  simp only [clearErrorsBody]
  generalize frame (abortRequest u.par) u = f at w ⊢
  exact .wire (abortResult f.1) f.2 (h _) (by simp only [maxCycles, lead_length_eq]; exact w)

theorem readLine_run (u : State) : BodyRun .readLine u (.okBit (sample u).1, (sample u).2) :=
  .wire (.okBit (sample u).1) (sample u).2 trivial (sample_wire u)

/-- The shape of every instruction but `init` and the reserved codes: the entry sequence, its argument check, and its body. -/
theorem exec_runs (i : Instr) (s : State) (hi : i ≠ .init) (hc : i.codeAssigned = true) :
    ∃ body : State → CmdResult × State, exec i s = .next (runCommand (argumentsOk s i) body (s.issued i)) ∧
      (argumentsOk s i = true → BodyRun i (begin (s.issued i)) (body (begin (s.issued i)))) := by
  cases i with
  | init => exact absurd rfl hi
  | clockPulse => exact ⟨fun s => (.ok, pulse s), rfl, fun _ => wire_run rfl rfl (pulse_wire _)⟩
  | driveLine b => exact ⟨fun s => (.ok, drive s.op.bit s), rfl, fun _ => wire_run rfl rfl (drive_wire _ _)⟩
  | releaseLine => exact ⟨fun s => (.ok, release s), rfl, fun _ => wire_run rfl rfl (release_wire _)⟩
  | readLine => exact ⟨fun s => (.okBit (sample s).1, (sample s).2), rfl, fun _ => readLine_run _⟩
  | setResetPin b =>
    refine ⟨fun s => (.ok, driveReset s.op.level s), rfl, fun h => .reset b rfl ?_⟩
    show s.cfg.pinRst ≠ none
    intro hn
    simp [argumentsOk, hn] at h
  | setConnected b => exact ⟨fun s => (.ok, setConnectedFlag s.op.flag s), rfl, fun _ => .connected b rfl⟩
  | lineReset => exact ⟨fun s => (.ok, lineResetWires s), rfl, fun _ => lineReset_run _⟩
  | switchSequence => exact ⟨fun s => (.ok, switchWires s), rfl, fun _ => switchSequence_run _⟩
  | dormantWake => exact ⟨fun s => (.ok, wakeWires s), rfl, fun _ => dormantWake_run _⟩
  | dormantEnter => exact ⟨fun s => (.ok, dormantWires s), rfl, fun _ => dormantEnter_run _⟩
  | transfer a p r d => exact ⟨transferBody, rfl, fun _ => transfer_run a p r d _⟩
  | dpRead a =>
    exact ⟨fun s => retry { addr := s.op.addr, isAP := false, isRead := true, data := 0#32 } s, rfl,
      fun _ => retry_run (by simp only [maxCycles, lead_length_eq]) rfl⟩
  | dpWrite a d =>
    exact ⟨fun s => retry { addr := s.op.addr, isAP := false, isRead := false, data := s.op.wdata } s, rfl,
      fun _ => retry_run (by simp only [maxCycles, lead_length_eq]) rfl⟩
  | apRead a => exact ⟨apReadBody, rfl, fun _ => apRead_run a _⟩
  | apWrite a d =>
    exact ⟨fun s => retry { addr := s.op.addr, isAP := true, isRead := false, data := s.op.wdata } s, rfl,
      fun _ => retry_run (by simp only [maxCycles, lead_length_eq]) rfl⟩
  | clearErrors => exact ⟨clearErrorsBody, rfl, fun _ => clearErrors_run _⟩
  | reserved17 | reserved18 | reserved19 | reserved20 | reserved21 | reserved22 | reserved23 | reserved24 | reserved25 | reserved26
  | reserved27 | reserved28 | reserved29 | reserved30 | reserved31 => exact absurd hc (by simp [Instr.codeAssigned])
  | reqDpW0 => exact ⟨fun s => (.ok, sendHeader 0x81#8 s), rfl, fun _ => header_run _ rfl rfl⟩
  | reqDpW4 => exact ⟨fun s => (.ok, sendHeader 0xA9#8 s), rfl, fun _ => header_run _ rfl rfl⟩
  | reqDpW8 => exact ⟨fun s => (.ok, sendHeader 0xB1#8 s), rfl, fun _ => header_run _ rfl rfl⟩
  | reqDpWC => exact ⟨fun s => (.ok, sendHeader 0x99#8 s), rfl, fun _ => header_run _ rfl rfl⟩
  | reqDpR0 => exact ⟨fun s => (.ok, sendHeader 0xA5#8 s), rfl, fun _ => header_run _ rfl rfl⟩
  | reqDpR4 => exact ⟨fun s => (.ok, sendHeader 0x8D#8 s), rfl, fun _ => header_run _ rfl rfl⟩
  | reqDpR8 => exact ⟨fun s => (.ok, sendHeader 0x95#8 s), rfl, fun _ => header_run _ rfl rfl⟩
  | reqDpRC => exact ⟨fun s => (.ok, sendHeader 0xBD#8 s), rfl, fun _ => header_run _ rfl rfl⟩
  | reqApW0 => exact ⟨fun s => (.ok, sendHeader 0xA3#8 s), rfl, fun _ => header_run _ rfl rfl⟩
  | reqApW4 => exact ⟨fun s => (.ok, sendHeader 0x8B#8 s), rfl, fun _ => header_run _ rfl rfl⟩
  | reqApW8 => exact ⟨fun s => (.ok, sendHeader 0x93#8 s), rfl, fun _ => header_run _ rfl rfl⟩
  | reqApWC => exact ⟨fun s => (.ok, sendHeader 0xBB#8 s), rfl, fun _ => header_run _ rfl rfl⟩
  | reqApR0 => exact ⟨fun s => (.ok, sendHeader 0x87#8 s), rfl, fun _ => header_run _ rfl rfl⟩
  | reqApR4 => exact ⟨fun s => (.ok, sendHeader 0xAF#8 s), rfl, fun _ => header_run _ rfl rfl⟩
  | reqApR8 => exact ⟨fun s => (.ok, sendHeader 0xB7#8 s), rfl, fun _ => header_run _ rfl rfl⟩
  | reqApRC => exact ⟨fun s => (.ok, sendHeader 0x9F#8 s), rfl, fun _ => header_run _ rfl rfl⟩
  | ackProtocolError000 => exact ⟨fun s => (.ok, (receiveAck { s with answers := wireBits 0b000#3 ++ s.answers }).2), rfl, fun _ => ack_run _ rfl rfl⟩
  | ackOk => exact ⟨fun s => (.ok, (receiveAck { s with answers := wireBits 0b001#3 ++ s.answers }).2), rfl, fun _ => ack_run _ rfl rfl⟩
  | ackWait => exact ⟨fun s => (.ok, (receiveAck { s with answers := wireBits 0b010#3 ++ s.answers }).2), rfl, fun _ => ack_run _ rfl rfl⟩
  | ackProtocolError011 => exact ⟨fun s => (.ok, (receiveAck { s with answers := wireBits 0b011#3 ++ s.answers }).2), rfl, fun _ => ack_run _ rfl rfl⟩
  | ackFault => exact ⟨fun s => (.ok, (receiveAck { s with answers := wireBits 0b100#3 ++ s.answers }).2), rfl, fun _ => ack_run _ rfl rfl⟩
  | ackProtocolError101 => exact ⟨fun s => (.ok, (receiveAck { s with answers := wireBits 0b101#3 ++ s.answers }).2), rfl, fun _ => ack_run _ rfl rfl⟩
  | ackProtocolError110 => exact ⟨fun s => (.ok, (receiveAck { s with answers := wireBits 0b110#3 ++ s.answers }).2), rfl, fun _ => ack_run _ rfl rfl⟩
  | ackProtocolError111 => exact ⟨fun s => (.ok, (receiveAck { s with answers := wireBits 0b111#3 ++ s.answers }).2), rfl, fun _ => ack_run _ rfl rfl⟩
  | jtagToSwd =>
    exact ⟨fun s => (.ok, writeBits 0xE79E#16 (ensureDriving s)), rfl, fun _ => constant_run _ rfl rfl⟩
  | selectionAlert =>
    exact ⟨fun s => (.ok, writeBits 0x19BC0EA2E3DDAFE986852D956209F392#128 (ensureDriving s)), rfl, fun _ => constant_run _ rfl rfl⟩
  | activationCode =>
    exact ⟨fun s => (.ok, writeBits 0x1A#8 (ensureDriving s)), rfl, fun _ => constant_run _ rfl rfl⟩
  | toDormant =>
    exact ⟨fun s => (.ok, writeBits 0xE3BC#16 (ensureDriving s)), rfl, fun _ => constant_run _ rfl rfl⟩

/-- A reserved code (R72). -/
theorem exec_reserved (i : Instr) (s : State) (hc : i.codeAssigned = false) :
    exec i s = .next (s.reply (.err .invalidArgument none) none false 0) ∧ s.issued i = s ∧ maxCycles s i = 0 := by
  cases i <;> first | exact ⟨rfl, rfl, rfl⟩ | exact absurd hc (by simp [Instr.codeAssigned])

/-- What an instruction other than `init` leaves: a refusal by the entry sequence, or the result of its body. -/
theorem exec_result (i : Instr) (s : State) (hi : i ≠ .init) :
    (i.codeAssigned = false ∧ exec i s = .next ((s.issued i).reply (.err .invalidArgument none) none false 0)) ∨
    (i.codeAssigned = true ∧ s.link.initialized = false ∧
      exec i s = .next ((s.issued i).reply (.err .invalidState none) none false 0)) ∨
    (i.codeAssigned = true ∧ s.link.initialized = true ∧ argumentsOk s i = false ∧
      exec i s = .next ((s.issued i).reply (.err .invalidArgument none) none false 0)) ∨
    (i.codeAssigned = true ∧ s.link.initialized = true ∧ argumentsOk s i = true ∧
      ∃ x, BodyRun i (begin (s.issued i)) x ∧ exec i s = .next (finish x.1 x.2)) := by
  cases hc : i.codeAssigned with
  | false =>
    obtain ⟨h1, h2, _⟩ := exec_reserved i s hc
    exact .inl ⟨rfl, by rw [h1, h2]⟩
  | true =>
    obtain ⟨body, he, hb⟩ := exec_runs i s hi hc
    have hl : (s.issued i).link = s.link := by cases i <;> rfl
    cases hn : s.link.initialized with
    | false =>
      exact .inr (.inl ⟨rfl, rfl, by rw [he, runCommand_notInitialised _ _ _ (by rw [hl]; exact hn)]⟩)
    | true =>
      cases ha : argumentsOk s i with
      | false =>
        exact .inr (.inr (.inl ⟨rfl, rfl, rfl, by rw [he, ha, runCommand_badArgument _ _ (by rw [hl]; exact hn)]⟩))
      | true =>
        exact .inr (.inr (.inr ⟨rfl, rfl, rfl, _, hb ha, by rw [he, ha, runCommand_runs _ _ (by rw [hl]; exact hn)]⟩))

/-! ### The direction of the line (Table TO, Table EL) -/

theorem frame_direction (q : Request) (s : State) : (frame q s).2.link.driving = drivesAfter (frame q s).1 := by
  rcases frame_cases q s with ⟨_, ⟨w, h⟩ | h, hd, _⟩ | ⟨_, h, hd, _⟩ | ⟨h | h | h, hd, _⟩ <;> rw [hd, h] <;> rfl

/-- What the result of a loop says of the line. -/
def CmdResult.direction (isRead : Bool) (t : State) : CmdResult → Prop
  | .okWord _         => t.link.driving = false ∧ isRead = true
  | .ok               => t.link.driving = true ∧ isRead = false
  | .err _ (some o)   => t.link.driving = drivesAfter o
  | .err _ none       => True
  | _                 => False

theorem clearErrors_direction (s : State) :
    (clearErrorsBody s).2.link.driving = true ∧
      ((clearErrorsBody s).1 = .ok ∨ ∃ c o, (clearErrorsBody s).1 = .err c (some o) ∧ drivesAfter o = true) := by
  refine ⟨(clearErrors_wire s).1, ?_⟩
  have hf := frame_cases (abortRequest s.par) s
  simp only [clearErrorsBody]
  generalize frame (abortRequest s.par) s = f at hf ⊢
  rcases hf with ⟨h, _⟩ | ⟨_, h, _⟩ | ⟨h | h | h, _⟩
  · exact absurd h (by simp [abortRequest])
  · rw [h]; exact .inl rfl
  · rw [h]; exact .inr ⟨_, _, rfl, rfl⟩
  · rw [h]; exact .inr ⟨_, _, rfl, rfl⟩
  · rw [h]; exact .inr ⟨_, _, rfl, rfl⟩

theorem loopTurn_direction (q : Request) (s : State) :
    (∀ r, (loopTurn q s).1 = .done r → r.direction q.isRead (loopTurn q s).2) ∧
    (∀ o, (loopTurn q s).1 = .again o → (loopTurn q s).2.link.driving = drivesAfter o) := by
  have hw := frame_cases q s.countAttempt
  obtain ⟨ha1, ha2, _⟩ := attempt_wire q s
  rw [← ha1, ← ha2] at hw
  have hnon : ∀ (o : FrameOutcome) (t : State), t.link.driving = drivesAfter o →
      (∀ r, loopTurn.nonretry s.par o = .done r → r.direction q.isRead t) ∧
      (∀ o', loopTurn.nonretry s.par o = .again o' → t.link.driving = drivesAfter o') := by
    intro o t h
    unfold loopTurn.nonretry
    split
    · exact ⟨fun r hr => (by cases hr; exact h), fun o' ho => (by cases ho)⟩
    · exact ⟨fun r hr => (by cases hr), fun o' ho => (by cases ho; exact h)⟩
  rcases hw with ⟨hr, ⟨w, h1⟩ | h1, hd, _⟩ | ⟨hr, h1, hd, _⟩ | ⟨h1 | h1 | h1, hd, _⟩
  · rw [loopTurn_okData q w s h1]
    exact ⟨fun r h => (by cases h; exact ⟨hd, hr⟩), fun o h => (by cases h)⟩
  · rw [loopTurn_parityError q s h1]
    exact hnon .parityError _ hd
  · rw [loopTurn_ok q s h1]
    exact ⟨fun r h => (by cases h; exact ⟨hd, hr⟩), fun o h => (by cases h)⟩
  · rw [loopTurn_wait q s h1]
    exact ⟨fun r h => (by cases h), fun o h => (by cases h; exact hd)⟩
  · obtain ⟨cd, hok | ⟨c, o, herr, hdo⟩⟩ := clearErrors_direction (attempt q s).2
    · rw [loopTurn_fault q s h1 hok]
      exact ⟨fun r h => (by cases h), fun o h => (by cases h; exact cd)⟩
    · rw [loopTurn_fault_err q c _ s h1 herr]
      exact ⟨fun r h => (by cases h; exact cd.trans hdo.symm), fun o h => (by cases h)⟩
  · rw [loopTurn_protocolError q s h1]
    exact hnon .protocolError _ hd

theorem retryLoop_direction (q : Request) (n : Nat) (last : Option FrameOutcome) (s : State)
    (h : ∀ o, last = some o → s.link.driving = drivesAfter o) :
    (retryLoop q n last s).1.direction q.isRead (retryLoop q n last s).2 := by
  induction n generalizing last s with
  | zero =>
    cases last with
    | none => trivial
    | some o => exact h o rfl
  | succ n ih =>
    obtain ⟨hd, hg⟩ := loopTurn_direction q s
    cases ht : (loopTurn q s).1 with
    | done r => rw [retryLoop_done q n last r s ht]; exact hd r ht
    | again o =>
      rw [retryLoop_again q n last o s ht]
      exact ih (some o) _ (fun o' ho => by cases ho; exact hg o ht)

theorem retry_direction (q : Request) (s : State) : (retry q s).1.direction q.isRead (retry q s).2 := by
  simp only [retry]
  exact retryLoop_direction q s.par.retryBound none (s.setAttempt 0) (fun _ h => by cases h)

theorem apReadBody_direction (s : State) : (apReadBody s).1.direction true (apReadBody s).2 := by
  rcases retry_read_result (apReadRequest s.op.addr) s rfl with ⟨w, hw⟩ | ⟨e, i, he, _⟩
  · rw [apReadBody_word s w hw]; exact retry_direction _ _
  · have h := retry_direction (apReadRequest s.op.addr) s
    rw [apReadBody_err s e i he]
    rw [he] at h
    cases i with
    | none => trivial
    | some o => exact h

end Sys2Proof.Machine
end

