-- ==== Sys2Proof/Laws/Mask.lean ====
section
/-! SUPPORT. No wire activity reads the configuration, the `connected` flag or the operand registers, except through the request it is
given: every operation commutes with replacing them (10_state.md R26, 42_transaction.md R155, 70_reset_and_hazards.md R240). -/

namespace Sys2Proof.Machine

/-- `s` with another configuration, `connected` flag and operand registers. -/
def State.mask (c : LinkConfig) (k : Bool) (o : OperandRegs) (s : State) : State :=
  { s with cfg := c, link := { s.link with connected := k }, op := o }

/-- `f` neither reads nor depends on what `mask` replaces. -/
def Blind (f : State → State) : Prop := ∀ c k o s, f (s.mask c k o) = (f s).mask c k o

/-- The same for an operation that also answers a value. -/
def BlindM {α : Type} (f : State → α × State) : Prop := ∀ c k o s, f (s.mask c k o) = ((f s).1, (f s).2.mask c k o)

theorem mask_par (c k o) (s : State) : (s.mask c k o).par = s.par := rfl
theorem mask_driving (c k o) (s : State) : (s.mask c k o).link.driving = s.link.driving := rfl
theorem mask_initialized (c k o) (s : State) : (s.mask c k o).link.initialized = s.link.initialized := rfl

theorem pulse_blind : Blind pulse := fun _ _ _ _ => rfl
theorem drive_blind (b : Bit) : Blind (drive b) := fun _ _ _ _ => rfl
theorem release_blind : Blind release := fun _ _ _ _ => rfl
theorem enter_blind (p : Phase) : Blind (State.enter p) := fun _ _ _ _ => rfl
theorem atBit_blind (i : Nat) : Blind (State.atBit i) := fun _ _ _ _ => rfl
theorem setAttempt_blind (n : Nat) : Blind (State.setAttempt n) := fun _ _ _ _ => rfl
theorem countAttempt_blind : Blind State.countAttempt := fun _ _ _ _ => rfl
theorem recordAck_blind (a : Ack) (p : Bool) : Blind (State.recordAck a p) := fun _ _ _ _ => rfl
theorem begin_blind : Blind begin := fun _ _ _ _ => rfl
theorem finish_blind (r : CmdResult) : Blind (finish r) := fun _ _ _ _ => rfl

theorem sample_blind : BlindM sample := by
  intro c k o s
  cases s with | mk par cfg link clk dioOut dioOE rst op seq busy res sampled trace rstTrace port answers free =>
  cases dioOE
  · cases answers <;> rfl
  · rfl

theorem sendBits_blind (i : Nat) (bs : List Bit) : Blind (sendBits i bs) := by
  intro c k o s
  induction bs generalizing i s with
  | nil => rfl
  | cons b bs ih => exact ih (i + 1) (pulse (drive b (s.atBit i)))

theorem writeBits_blind {w : Nat} (v : BitVec w) : Blind (writeBits v) := sendBits_blind 0 _

theorem receiveBits_blind (i n : Nat) : BlindM (receiveBits i n) := by
  intro c k o s
  induction n generalizing i s with
  | zero => rfl
  | succ n ih =>
    simp only [receiveBits]
    rw [atBit_blind, sample_blind]
    simp only
    rw [pulse_blind, ih]

theorem readBits_blind (n : Nat) : BlindM (readBits n) := by
  intro c k o s
  simp only [readBits]
  rw [receiveBits_blind]

theorem cycles_blind (b : Bit) (n : Nat) : Blind (cycles b n) := sendBits_blind 0 _

theorem pulses_blind (i n : Nat) : Blind (pulses i n) := by
  intro c k o s
  induction n generalizing i s with
  | zero => rfl
  | succ n ih => exact ih (i + 1) (pulse (s.atBit i))

theorem ensureDriving_blind : Blind ensureDriving := by
  intro c k o s
  unfold ensureDriving
  rw [mask_driving, mask_par, pulses_blind]
  split <;> rfl

theorem turnToTarget_blind : Blind turnToTarget := by
  intro c k o s
  unfold turnToTarget
  rw [mask_driving, mask_par, release_blind, pulses_blind]
  split <;> rfl

theorem sendHeader_blind (h : BitVec 8) : Blind (sendHeader h) := by
  intro c k o s
  simp only [sendHeader]
  rw [enter_blind, ensureDriving_blind, enter_blind, writeBits_blind]

theorem receiveAck_blind : BlindM receiveAck := by
  intro c k o s
  simp only [receiveAck]
  rw [enter_blind, turnToTarget_blind, enter_blind, readBits_blind]
  rfl

theorem checkParity_blind (w : Word32) (p : BitVec 1) : BlindM (checkParity w p) := by
  intro c k o s
  unfold checkParity
  split <;> rfl

theorem readPhase_blind : BlindM readPhase := by
  intro c k o s
  simp only [readPhase]
  rw [enter_blind, readBits_blind]
  simp only
  rw [enter_blind, readBits_blind]
  simp only
  rw [checkParity_blind]

theorem postIdle_blind : Blind postIdle := by
  intro c k o s
  unfold postIdle
  rw [mask_par, enter_blind, cycles_blind]

theorem writePhase_blind (d : Word32) : Blind (writePhase d) := by
  intro c k o s
  simp only [writePhase]
  rw [enter_blind, ensureDriving_blind, enter_blind, writeBits_blind, enter_blind, writeBits_blind, postIdle_blind]

theorem drainPhase_blind : Blind drainPhase := by
  intro c k o s
  simp only [drainPhase, mask_par]
  rw [enter_blind, ensureDriving_blind, enter_blind, writeBits_blind, enter_blind, writeBits_blind, postIdle_blind]

theorem framePhases_blind (q : Request) (a : Ack) : BlindM (framePhases q a) := by
  intro c k o s
  cases a with
  | ok =>
    simp only [framePhases]
    split
    · exact readPhase_blind c k o s
    · rw [writePhase_blind]
  | wait => simp only [framePhases]; rw [drainPhase_blind]
  | fault => simp only [framePhases]; rw [drainPhase_blind]
  | protocolError => simp only [framePhases]; rw [drainPhase_blind]

theorem frame_blind (q : Request) : BlindM (frame q) := by
  intro c k o s
  simp only [frame, mask_par]
  rw [sendHeader_blind, receiveAck_blind]
  simp only
  rw [framePhases_blind]
  rfl

theorem clearErrorsBody_blind : BlindM clearErrorsBody := by
  intro c k o s
  simp only [clearErrorsBody, mask_par]
  rw [frame_blind]

theorem attempt_blind (q : Request) : BlindM (attempt q) := by
  intro c k o s
  simp only [attempt]
  rw [countAttempt_blind, frame_blind]
  rfl

theorem clearErrors_result (s : State) : (clearErrorsBody s).1 = .ok ∨
    ∃ c i, (clearErrorsBody s).1 = .err c i ∧ (c = .protocolTimeout ∨ c = .protocolFault) := by
  simp only [clearErrorsBody]; exact abortResult_cases _

theorem loopTurn_blind (q : Request) : BlindM (loopTurn q) := by
  intro c k o s
  have ha := attempt_blind q c k o s
  have h1 : (attempt q (s.mask c k o)).1 = (attempt q s).1 := by rw [ha]
  have h2 : (attempt q (s.mask c k o)).2 = (attempt q s).2.mask c k o := by rw [ha]
  cases h : (attempt q s).1 with
  | okData w => rw [loopTurn_okData q w s h, loopTurn_okData q w _ (h1.trans h), h2]
  | ok => rw [loopTurn_ok q s h, loopTurn_ok q _ (h1.trans h), h2]
  | wait => rw [loopTurn_wait q s h, loopTurn_wait q _ (h1.trans h), h2]
  | parityError => rw [loopTurn_parityError q s h, loopTurn_parityError q _ (h1.trans h), h2]; rfl
  | protocolError => rw [loopTurn_protocolError q s h, loopTurn_protocolError q _ (h1.trans h), h2]; rfl
  | fault =>
    have hc := clearErrorsBody_blind c k o (attempt q s).2
    rw [← h2] at hc
    have hc1 : (clearErrorsBody (attempt q (s.mask c k o)).2).1 = (clearErrorsBody (attempt q s).2).1 := by rw [hc]
    have hc2 : (clearErrorsBody (attempt q (s.mask c k o)).2).2 = (clearErrorsBody (attempt q s).2).2.mask c k o := by rw [hc]
    rcases clearErrors_result (attempt q s).2 with hok | ⟨e, i, herr, _⟩
    · rw [loopTurn_fault q s h hok, loopTurn_fault q (s.mask c k o) (h1.trans h) (hc1.trans hok), hc2]
    · rw [loopTurn_fault_err q e i s h herr, loopTurn_fault_err q e i (s.mask c k o) (h1.trans h) (hc1.trans herr), hc2]

theorem retryLoop_blind (q : Request) (n : Nat) (last : Option FrameOutcome) : BlindM (retryLoop q n last) := by
  intro c k o s
  induction n generalizing last s with
  | zero => rfl
  | succ n ih =>
    cases h : (loopTurn q s).1 with
    | done r =>
      rw [retryLoop_done q n last r s h, retryLoop_done q n last r _ (by rw [loopTurn_blind]; exact h), loopTurn_blind]
    | again a =>
      rw [retryLoop_again q n last a s h, retryLoop_again q n last a _ (by rw [loopTurn_blind]; exact h), loopTurn_blind]
      exact ih (some a) _

theorem retry_blind (q : Request) : BlindM (retry q) := by
  intro c k o s
  simp only [retry, mask_par]
  rw [setAttempt_blind, retryLoop_blind]

/-- Both loops of `apRead`, its request taken from an operand register that the mask keeps (R174). -/
theorem apReadBody_blind (c : LinkConfig) (k : Bool) (o : OperandRegs) (s : State) (h : o.addr = s.op.addr) :
    apReadBody (s.mask c k o) = ((apReadBody s).1, (apReadBody s).2.mask c k o) := by
  have e : (s.mask c k o).op.addr = s.op.addr := h
  simp only [apReadBody, e, retry_blind _ c k o s]
  cases (retry { addr := s.op.addr, isAP := true, isRead := true, data := 0#32 } s).1 <;>
    simp only [mask_par, retry_blind _ c k o _]

theorem lineResetBody_blind : Blind lineResetBody := by
  intro c k o s
  unfold lineResetBody
  simp only [mask_par, cycles_blind _ _ c k o]

theorem lineResetWires_blind : Blind lineResetWires := by
  intro c k o s
  simp only [lineResetWires, ensureDriving_blind c k o s, lineResetBody_blind c k o _]

theorem switchWires_blind : Blind switchWires := by
  intro c k o s
  simp only [switchWires, mask_par, ensureDriving_blind c k o s, writeBits_blind _ c k o _, lineResetBody_blind c k o _]

theorem wakeWires_blind : Blind wakeWires := by
  intro c k o s
  simp only [wakeWires, mask_par, ensureDriving_blind c k o s, cycles_blind _ _ c k o _, writeBits_blind _ c k o _,
    lineResetBody_blind c k o _]

theorem dormantWires_blind : Blind dormantWires := by
  intro c k o s
  simp only [dormantWires, mask_par, ensureDriving_blind c k o s, cycles_blind _ _ c k o _, writeBits_blind _ c k o _]

/-- A command whose body commutes with this mask commutes with it too (R109). -/
theorem runCommand_mask (ok : Bool) (f g : State → CmdResult × State) (c : LinkConfig) (k : Bool) (o : OperandRegs) (s : State)
    (h : g ((begin s).mask c k o) = ((f (begin s)).1, (f (begin s)).2.mask c k o)) :
    runCommand ok g (s.mask c k o) = (runCommand ok f s).mask c k o := by
  simp only [runCommand]
  rw [begin_blind, mask_initialized]
  split
  · split
    · rw [h]; rfl
    · rfl
  · rfl

end Sys2Proof.Machine
end

