-- ==== Sys2Proof/Laws/Blind.lean ====
section
/-! SUPPORT. Every instruction commutes with replacing the half-period delay, the `connected` flag and the configuration port
(10_state.md R26, 70_reset_and_hazards.md R240). -/

namespace Sys2Proof.Machine

/-- What an instruction makes of a state with another configuration `c`, `connected` flag `k` and configuration port `p`. -/
def Masked (i : Instr) : Prop :=
  ∀ (c : LinkConfig) (k : Bool) (p : LinkConfig) (s t : State), c.pinRst = s.cfg.pinRst → exec i s = .next t →
    ∃ k', (k = s.link.connected → k' = t.link.connected) ∧
      exec i (s.mask c k { s.op with config := p }) = .next (t.mask c k' { (s.issued i).op with config := p })

/-- A blind operation leaves the `connected` flag alone. -/
theorem Blind.connected {f : State → State} (hf : Blind f) (s : State) : (f s).link.connected = s.link.connected :=
  congrArg (fun t => t.link.connected) (hf s.cfg s.link.connected s.op s)

theorem masked_of {i : Instr} {f : State → State} (he : ∀ s, exec i s = .next (f s)) (hi : ∀ s : State, s.issued i = s) (hf : Blind f) :
    Masked i := by
  intro c k p s t _ h
  rw [he s] at h
  cases h
  exact ⟨k, fun h => h.trans (hf.connected s).symm, by rw [he, hf c k _ s, hi s]⟩

theorem runCommand_blind (ok : Bool) {f : State → State} (hf : Blind f) : Blind (runCommand ok (fun s => (.ok, f s))) :=
  fun c k o s => runCommand_mask ok _ _ c k o s (by simp only [hf c k o _])

theorem reservedCode_blind : Blind reservedCode := fun _ _ _ _ => rfl

theorem emitHeader_blind (h : BitVec 8) : Blind (emitHeader h) := runCommand_blind true (sendHeader_blind h)

theorem emitConstant_blind {w : Nat} (v : BitVec w) : Blind (emitConstant v) :=
  runCommand_blind true (f := fun s => writeBits v (ensureDriving s)) (fun c k o s => by
    simp only [ensureDriving_blind c k o _, writeBits_blind v c k o _])

theorem answerAck_blind (a : BitVec 3) : Blind (answerAck a) :=
  runCommand_blind true (f := fun s => (receiveAck { s with answers := wireBits a ++ s.answers }).2) (fun c k o s => by
    show (receiveAck (State.mask c k o { s with answers := wireBits a ++ s.answers })).2 = _
    rw [receiveAck_blind])

theorem masked_clockPulse : Masked .clockPulse := masked_of (fun _ => rfl) (fun _ => rfl) (runCommand_blind true pulse_blind)
theorem masked_releaseLine : Masked .releaseLine := masked_of (fun _ => rfl) (fun _ => rfl) (runCommand_blind true release_blind)
theorem masked_lineReset : Masked .lineReset := masked_of (fun _ => rfl) (fun _ => rfl) (runCommand_blind true lineResetWires_blind)
theorem masked_switchSequence : Masked .switchSequence :=
  masked_of (fun _ => rfl) (fun _ => rfl) (runCommand_blind true switchWires_blind)
theorem masked_dormantWake : Masked .dormantWake := masked_of (fun _ => rfl) (fun _ => rfl) (runCommand_blind true wakeWires_blind)
theorem masked_dormantEnter : Masked .dormantEnter :=
  masked_of (fun _ => rfl) (fun _ => rfl) (runCommand_blind true dormantWires_blind)

theorem masked_clearErrors : Masked .clearErrors :=
  masked_of (f := runCommand true clearErrorsBody) (fun _ => rfl) (fun _ => rfl)
    (fun c k o s => runCommand_mask true clearErrorsBody clearErrorsBody c k o s (clearErrorsBody_blind c k o _))

theorem masked_readLine : Masked .readLine :=
  masked_of (f := runCommand true (fun s => (.okBit (sample s).1, (sample s).2))) (fun _ => rfl) (fun _ => rfl)
    (fun c k o s => runCommand_mask true _ _ c k o s (by simp only [sample_blind c k o _]))

/-- The instructions with operands: the command is run from the state with its operands latched. -/
theorem masked_operands {i : Instr} {ok : State → Bool} {body : State → CmdResult × State}
    (he : ∀ s, exec i s = .next (runCommand (ok s) body (s.issued i)))
    (hi : ∀ c k p (s : State), (s.mask c k { s.op with config := p }).issued i = (s.issued i).mask c k { (s.issued i).op with config := p })
    (hok : ∀ c k o (s : State), c.pinRst = s.cfg.pinRst → ok (s.mask c k o) = ok s)
    (hb : ∀ c k p (s : State), body ((begin (s.issued i)).mask c k { (s.issued i).op with config := p }) =
      ((body (begin (s.issued i))).1, (body (begin (s.issued i))).2.mask c k { (s.issued i).op with config := p })) : Masked i := by
  have hk : ∀ s, (runCommand (ok s) body (s.issued i)).link.connected = s.link.connected := by
    intro s
    have hl : (s.issued i).link = s.link := by cases i <;> rfl
    have hm := runCommand_mask (ok s) body body (s.issued i).cfg s.link.connected { (s.issued i).op with config := (s.issued i).op.config }
      (s.issued i) (by
        have h := hb (s.issued i).cfg s.link.connected (s.issued i).op.config s
        exact h)
    rw [← hl] at hm ⊢
    exact congrArg (fun t => t.link.connected) hm
  intro c k p s t hc h
  rw [he] at h
  cases h
  refine ⟨k, fun h => h.trans (hk s).symm, ?_⟩
  rw [he, hi, hok c k _ s hc, runCommand_mask (ok s) body body c k _ (s.issued i) (hb c k p s)]

theorem masked_driveLine (b : Bit) : Masked (.driveLine b) :=
  masked_operands (ok := fun _ => true) (body := fun s => (.ok, drive s.op.bit s)) (fun _ => rfl) (fun _ _ _ _ => rfl)
    (fun _ _ _ _ _ => rfl) (fun _ _ _ _ => rfl)

theorem masked_setResetPin (b : Bit) : Masked (.setResetPin b) :=
  masked_operands (ok := fun s => s.cfg.pinRst.isSome) (body := fun s => (.ok, driveReset s.op.level s)) (fun _ => rfl)
    (fun _ _ _ _ => rfl) (fun c _ _ s h => by show c.pinRst.isSome = _; rw [h]) (fun _ _ _ _ => rfl)

theorem masked_transfer (a : Addr) (p r : Bit) (d : Word32) : Masked (.transfer a p r d) :=
  masked_operands (ok := fun _ => aligned a) (body := transferBody) (fun _ => rfl) (fun _ _ _ _ => rfl) (fun _ _ _ _ _ => rfl)
    (fun c k cp s => by
      have hf := frame_blind { addr := a, isAP := p, isRead := r, data := d } c k { (s.latchTransfer a p r d).op with config := cp }
        (begin (s.latchTransfer a p r d))
      have q1 : (State.mask c k { (s.latchTransfer a p r d).op with config := cp } (begin (s.latchTransfer a p r d))).request =
        { addr := a, isAP := p, isRead := r, data := d } := rfl
      have q2 : (begin (s.latchTransfer a p r d)).request = { addr := a, isAP := p, isRead := r, data := d } := rfl
      simp only [State.issued, transferBody, q1, q2, hf])

theorem masked_dpRead (a : Addr) : Masked (.dpRead a) :=
  masked_operands (ok := fun _ => aligned a)
    (body := fun s => retry { addr := s.op.addr, isAP := false, isRead := true, data := 0#32 } s) (fun _ => rfl) (fun _ _ _ _ => rfl)
    (fun _ _ _ _ _ => rfl) (fun c k _ _ => retry_blind { addr := a, isAP := false, isRead := true, data := 0#32 } c k _ _)

theorem masked_dpWrite (a : Addr) (d : Word32) : Masked (.dpWrite a d) :=
  masked_operands (ok := fun _ => aligned a)
    (body := fun s => retry { addr := s.op.addr, isAP := false, isRead := false, data := s.op.wdata } s) (fun _ => rfl)
    (fun _ _ _ _ => rfl) (fun _ _ _ _ _ => rfl)
    (fun c k _ _ => retry_blind { addr := a, isAP := false, isRead := false, data := d } c k _ _)

theorem masked_apWrite (a : Addr) (d : Word32) : Masked (.apWrite a d) :=
  masked_operands (ok := fun _ => aligned a)
    (body := fun s => retry { addr := s.op.addr, isAP := true, isRead := false, data := s.op.wdata } s) (fun _ => rfl)
    (fun _ _ _ _ => rfl) (fun _ _ _ _ _ => rfl)
    (fun c k _ _ => retry_blind { addr := a, isAP := true, isRead := false, data := d } c k _ _)

theorem masked_apRead (a : Addr) : Masked (.apRead a) :=
  masked_operands (ok := fun _ => aligned a) (body := apReadBody) (fun _ => rfl) (fun _ _ _ _ => rfl) (fun _ _ _ _ _ => rfl)
    (fun c k _ s => apReadBody_blind c k _ (begin (s.issued (.apRead a))) rfl)

theorem masked_setConnected (b : Bit) : Masked (.setConnected b) := by
  intro c k p s t _ h
  simp only [exec, execSetConnected] at h ⊢
  cases hn : s.link.initialized with
  | true =>
    rw [runCommand_runs _ _ (by exact hn)] at h
    rw [runCommand_runs _ _ (by exact hn)]
    cases h
    exact ⟨b, fun _ => rfl, rfl⟩
  | false =>
    rw [runCommand_notInitialised _ _ _ (by exact hn)] at h
    rw [runCommand_notInitialised _ _ _ (by exact hn)]
    cases h
    exact ⟨k, id, rfl⟩

/-- Every instruction but `init`, which writes the configuration and the flag whole. -/
theorem exec_masked (i : Instr) (hi : i ≠ .init) : Masked i := by
  cases i with
  | init => exact absurd rfl hi
  | clockPulse => exact masked_clockPulse
  | driveLine b => exact masked_driveLine b
  | releaseLine => exact masked_releaseLine
  | readLine => exact masked_readLine
  | setResetPin b => exact masked_setResetPin b
  | setConnected b => exact masked_setConnected b
  | lineReset => exact masked_lineReset
  | switchSequence => exact masked_switchSequence
  | dormantWake => exact masked_dormantWake
  | dormantEnter => exact masked_dormantEnter
  | transfer a p r d => exact masked_transfer a p r d
  | dpRead a => exact masked_dpRead a
  | dpWrite a d => exact masked_dpWrite a d
  | apRead a => exact masked_apRead a
  | apWrite a d => exact masked_apWrite a d
  | clearErrors => exact masked_clearErrors
  | reserved17 | reserved18 | reserved19 | reserved20 | reserved21 | reserved22 | reserved23
  | reserved24 | reserved25 | reserved26 | reserved27 | reserved28 | reserved29 | reserved30 | reserved31 =>
    exact masked_of (f := reservedCode) (fun _ => rfl) (fun _ => rfl) reservedCode_blind
  | reqDpW0 => exact masked_of (f := emitHeader 0x81#8) (fun _ => rfl) (fun _ => rfl) (emitHeader_blind _)
  | reqDpW4 => exact masked_of (f := emitHeader 0xA9#8) (fun _ => rfl) (fun _ => rfl) (emitHeader_blind _)
  | reqDpW8 => exact masked_of (f := emitHeader 0xB1#8) (fun _ => rfl) (fun _ => rfl) (emitHeader_blind _)
  | reqDpWC => exact masked_of (f := emitHeader 0x99#8) (fun _ => rfl) (fun _ => rfl) (emitHeader_blind _)
  | reqDpR0 => exact masked_of (f := emitHeader 0xA5#8) (fun _ => rfl) (fun _ => rfl) (emitHeader_blind _)
  | reqDpR4 => exact masked_of (f := emitHeader 0x8D#8) (fun _ => rfl) (fun _ => rfl) (emitHeader_blind _)
  | reqDpR8 => exact masked_of (f := emitHeader 0x95#8) (fun _ => rfl) (fun _ => rfl) (emitHeader_blind _)
  | reqDpRC => exact masked_of (f := emitHeader 0xBD#8) (fun _ => rfl) (fun _ => rfl) (emitHeader_blind _)
  | reqApW0 => exact masked_of (f := emitHeader 0xA3#8) (fun _ => rfl) (fun _ => rfl) (emitHeader_blind _)
  | reqApW4 => exact masked_of (f := emitHeader 0x8B#8) (fun _ => rfl) (fun _ => rfl) (emitHeader_blind _)
  | reqApW8 => exact masked_of (f := emitHeader 0x93#8) (fun _ => rfl) (fun _ => rfl) (emitHeader_blind _)
  | reqApWC => exact masked_of (f := emitHeader 0xBB#8) (fun _ => rfl) (fun _ => rfl) (emitHeader_blind _)
  | reqApR0 => exact masked_of (f := emitHeader 0x87#8) (fun _ => rfl) (fun _ => rfl) (emitHeader_blind _)
  | reqApR4 => exact masked_of (f := emitHeader 0xAF#8) (fun _ => rfl) (fun _ => rfl) (emitHeader_blind _)
  | reqApR8 => exact masked_of (f := emitHeader 0xB7#8) (fun _ => rfl) (fun _ => rfl) (emitHeader_blind _)
  | reqApRC => exact masked_of (f := emitHeader 0x9F#8) (fun _ => rfl) (fun _ => rfl) (emitHeader_blind _)
  | ackProtocolError000 => exact masked_of (f := answerAck 0b000#3) (fun _ => rfl) (fun _ => rfl) (answerAck_blind _)
  | ackOk => exact masked_of (f := answerAck 0b001#3) (fun _ => rfl) (fun _ => rfl) (answerAck_blind _)
  | ackWait => exact masked_of (f := answerAck 0b010#3) (fun _ => rfl) (fun _ => rfl) (answerAck_blind _)
  | ackProtocolError011 => exact masked_of (f := answerAck 0b011#3) (fun _ => rfl) (fun _ => rfl) (answerAck_blind _)
  | ackFault => exact masked_of (f := answerAck 0b100#3) (fun _ => rfl) (fun _ => rfl) (answerAck_blind _)
  | ackProtocolError101 => exact masked_of (f := answerAck 0b101#3) (fun _ => rfl) (fun _ => rfl) (answerAck_blind _)
  | ackProtocolError110 => exact masked_of (f := answerAck 0b110#3) (fun _ => rfl) (fun _ => rfl) (answerAck_blind _)
  | ackProtocolError111 => exact masked_of (f := answerAck 0b111#3) (fun _ => rfl) (fun _ => rfl) (answerAck_blind _)
  | jtagToSwd => exact masked_of (f := emitConstant 0xE79E#16) (fun _ => rfl) (fun _ => rfl) (emitConstant_blind _)
  | selectionAlert => exact masked_of (f := emitConstant 0x19BC0EA2E3DDAFE986852D956209F392#128) (fun _ => rfl) (fun _ => rfl) (emitConstant_blind _)
  | activationCode => exact masked_of (f := emitConstant 0x1A#8) (fun _ => rfl) (fun _ => rfl) (emitConstant_blind _)
  | toDormant => exact masked_of (f := emitConstant 0xE3BC#16) (fun _ => rfl) (fun _ => rfl) (emitConstant_blind _)

/-- An instruction other than `init` leaves the operand registers as the host issued them, and the configuration alone. -/
theorem exec_op_cfg (i : Instr) (s t : State) (hi : i ≠ .init) (he : exec i s = .next t) :
    t.op = (s.issued i).op ∧ t.cfg = s.cfg := by
  have f : (s.issued i).cfg = s.cfg := by cases i <;> rfl
  rcases exec_result i s hi with ⟨_, h⟩ | ⟨_, _, h⟩ | ⟨_, _, _, h⟩ | ⟨_, _, _, x, hx, h⟩
  · rw [h] at he; cases he; exact ⟨rfl, f⟩
  · rw [h] at he; cases he; exact ⟨rfl, f⟩
  · rw [h] at he; cases he; exact ⟨rfl, f⟩
  · rw [h] at he
    injection he with he
    subst he
    cases hx with
    | wire r u hr hw => exact ⟨hw.control.op, hw.control.cfg.trans f⟩
    | reset b hb hp => exact ⟨rfl, f⟩
    | connected b hb => exact ⟨rfl, f⟩

/-- `init` (40_bitlink_primitives.md R100): accepted or not. -/
theorem exec_init_cases (s : State) :
    (configOk s.par s.op.config = true ∧ exec .init s = .next (finish .ok (initialise (begin s)))) ∨
    (configOk s.par s.op.config = false ∧ exec .init s = .next (s.reply (.err .invalidArgument none) none false 0)) := by
  cases h : configOk s.par s.op.config with
  | true => left; simp only [exec, execInit, h]; exact ⟨trivial, rfl⟩
  | false => right; simp only [exec, execInit, h]; exact ⟨trivial, rfl⟩

end Sys2Proof.Machine
end

