-- ==== Sys2Proof/Laws/Decode.lean ====
section
/-! SUPPORT. Bytes and numbers, and the fields of a command word (30_encoding.md Table CW). -/

namespace Sys2Proof

@[simp] theorem bytesLE_length (n v : Nat) : (bytesLE n v).length = n := by
  induction n generalizing v with
  | zero => rfl
  | succ n ih => simp [bytesLE, ih]

/-- Bytes laid out least significant first give the number back. -/
theorem natOfBytes_bytesLE (n v : Nat) (h : v < 256 ^ n) : natOfBytes (bytesLE n v) = v := by
  induction n generalizing v with
  | zero => simp at h; subst h; rfl
  | succ n ih =>
    have h' : v / 256 < 256 ^ n := by
      rw [Nat.pow_succ] at h
      exact Nat.div_lt_of_lt_mul (by rw [Nat.mul_comm]; exact h)
    simp only [bytesLE, natOfBytes, ih _ h', BitVec.toNat_ofNat]
    omega

/-- A 48-bit word, presented as six bytes, decodes as that command word. -/
theorem decode_word (w : BitVec 48) : decode (bytesLE 6 w.toNat) = .instr (decodeCommand w) := by
  have h : natOfBytes (bytesLE 6 w.toNat) = w.toNat := natOfBytes_bytesLE 6 _ (by have := w.isLt; omega)
  unfold decode
  rw [bytesLE_length, h]
  simp

section fields

variable (code : BitVec 5) (isAP isRead b : Bit) (addr : Addr) (data : Word32)

theorem cwCode_commandWord : cwCode (commandWord code isAP isRead b addr data) = code := by
  ext i hi
  simp only [cwCode, commandWord, BitVec.getElem_extractLsb', BitVec.getLsbD_append]
  have h1 : ¬ 43 + i < 1 + (1 + (1 + (8 + 32))) := by omega
  rw [if_neg h1, show 43 + i - (1 + (1 + (1 + (8 + 32)))) = i by omega]
  simp [hi]

theorem cwIsAP_commandWord : cwIsAP (commandWord code isAP isRead b addr data) = isAP := by
  unfold cwIsAP commandWord
  rw [BitVec.getLsbD_append, if_pos (by omega), BitVec.getLsbD_append, if_neg (by omega)]
  simp

theorem cwIsRead_commandWord : cwIsRead (commandWord code isAP isRead b addr data) = isRead := by
  unfold cwIsRead commandWord
  rw [BitVec.getLsbD_append, if_pos (by omega), BitVec.getLsbD_append, if_pos (by omega), BitVec.getLsbD_append, if_neg (by omega)]
  simp

theorem cwB_commandWord : cwB (commandWord code isAP isRead b addr data) = b := by
  unfold cwB commandWord
  rw [BitVec.getLsbD_append, if_pos (by omega), BitVec.getLsbD_append, if_pos (by omega), BitVec.getLsbD_append, if_pos (by omega), BitVec.getLsbD_append, if_neg (by omega)]
  simp

theorem cwAddr_commandWord : cwAddr (commandWord code isAP isRead b addr data) = addr := by
  ext i hi
  simp only [cwAddr, commandWord, BitVec.getElem_extractLsb', BitVec.getLsbD_append]
  rw [if_pos (by omega), if_pos (by omega), if_pos (by omega), if_pos (by omega), if_neg (by omega),
    show 32 + i - 32 = i by omega]
  simp [hi]

theorem cwData_commandWord : cwData (commandWord code isAP isRead b addr data) = data := by
  ext i hi
  simp only [cwData, commandWord, BitVec.getElem_extractLsb', BitVec.getLsbD_append]
  rw [if_pos (by omega), if_pos (by omega), if_pos (by omega), if_pos (by omega), if_pos (by omega)]
  simp [hi]

/-- A command's bytes decode by its fields. -/
theorem decode_commandBytes : decode (commandBytes code isAP isRead b addr data) =
    .instr (decodeCommand (commandWord code isAP isRead b addr data)) := decode_word _

end fields

end Sys2Proof
end

