-- ==== Sys2Proof/Laws/PerInstr.lean ====
section
/-! SUPPORT. The family `EncodeLength`: how many bytes each instruction is presented in (spec/opcode_table.json, assumption 12). -/

namespace Sys2Proof.Laws.EncodeLength

/-- The bytes of an instruction, by its row's width in the table: 48, 16, 128 or at most 8 bits. -/
def width : Instr → Nat
  | .jtagToSwd      => 2
  | .toDormant      => 2
  | .selectionAlert => 16
  | .init => 6
  | .clockPulse => 6
  | .driveLine _ => 6
  | .releaseLine => 6
  | .readLine => 6
  | .setResetPin _ => 6
  | .setConnected _ => 6
  | .lineReset => 6
  | .switchSequence => 6
  | .dormantWake => 6
  | .dormantEnter => 6
  | .transfer _ _ _ _ => 6
  | .dpRead _ => 6
  | .dpWrite _ _ => 6
  | .apRead _ => 6
  | .apWrite _ _ => 6
  | .clearErrors => 6
  | .reserved17 => 6
  | .reserved18 => 6
  | .reserved19 => 6
  | .reserved20 => 6
  | .reserved21 => 6
  | .reserved22 => 6
  | .reserved23 => 6
  | .reserved24 => 6
  | .reserved25 => 6
  | .reserved26 => 6
  | .reserved27 => 6
  | .reserved28 => 6
  | .reserved29 => 6
  | .reserved30 => 6
  | .reserved31 => 6
  | .reqDpW0 => 1
  | .reqDpW4 => 1
  | .reqDpW8 => 1
  | .reqDpWC => 1
  | .reqDpR0 => 1
  | .reqDpR4 => 1
  | .reqDpR8 => 1
  | .reqDpRC => 1
  | .reqApW0 => 1
  | .reqApW4 => 1
  | .reqApW8 => 1
  | .reqApWC => 1
  | .reqApR0 => 1
  | .reqApR4 => 1
  | .reqApR8 => 1
  | .reqApRC => 1
  | .ackProtocolError000 => 1
  | .ackOk => 1
  | .ackWait => 1
  | .ackProtocolError011 => 1
  | .ackFault => 1
  | .ackProtocolError101 => 1
  | .ackProtocolError110 => 1
  | .ackProtocolError111 => 1
  | .activationCode => 1

/-- The encoding has that many bytes, and the decoder's length test takes it for the format it is. -/
def Statement (i : Instr) : Prop := (encode i).length = width i ∧ ∀ n, decode (encode i) ≠ .rejected (.badLength n)

theorem command (code : BitVec 5) (isAP isRead b : Bit) (addr : Addr) (data : Word32) :
    (commandBytes code isAP isRead b addr data).length = 6 ∧
      ∀ n, decode (commandBytes code isAP isRead b addr data) ≠ .rejected (.badLength n) :=
  ⟨bytesLE_length _ _, fun _ => by rw [decode_commandBytes]; exact Decoded.noConfusion⟩

theorem init : Statement .init := command _ _ _ _ _ _
theorem clockPulse : Statement .clockPulse := command _ _ _ _ _ _
theorem driveLine (a : Bit) : Statement (.driveLine a) := command _ _ _ _ _ _
theorem releaseLine : Statement .releaseLine := command _ _ _ _ _ _
theorem readLine : Statement .readLine := command _ _ _ _ _ _
theorem setResetPin (a : Bit) : Statement (.setResetPin a) := command _ _ _ _ _ _
theorem setConnected (a : Bit) : Statement (.setConnected a) := command _ _ _ _ _ _
theorem lineReset : Statement .lineReset := command _ _ _ _ _ _
theorem switchSequence : Statement .switchSequence := command _ _ _ _ _ _
theorem dormantWake : Statement .dormantWake := command _ _ _ _ _ _
theorem dormantEnter : Statement .dormantEnter := command _ _ _ _ _ _
theorem transfer (a : Addr) (b : Bit) (c : Bit) (d : Word32) : Statement (.transfer a b c d) := command _ _ _ _ _ _
theorem dpRead (a : Addr) : Statement (.dpRead a) := command _ _ _ _ _ _
theorem dpWrite (a : Addr) (b : Word32) : Statement (.dpWrite a b) := command _ _ _ _ _ _
theorem apRead (a : Addr) : Statement (.apRead a) := command _ _ _ _ _ _
theorem apWrite (a : Addr) (b : Word32) : Statement (.apWrite a b) := command _ _ _ _ _ _
theorem clearErrors : Statement .clearErrors := command _ _ _ _ _ _
theorem reserved17 : Statement .reserved17 := command _ _ _ _ _ _
theorem reserved18 : Statement .reserved18 := command _ _ _ _ _ _
theorem reserved19 : Statement .reserved19 := command _ _ _ _ _ _
theorem reserved20 : Statement .reserved20 := command _ _ _ _ _ _
theorem reserved21 : Statement .reserved21 := command _ _ _ _ _ _
theorem reserved22 : Statement .reserved22 := command _ _ _ _ _ _
theorem reserved23 : Statement .reserved23 := command _ _ _ _ _ _
theorem reserved24 : Statement .reserved24 := command _ _ _ _ _ _
theorem reserved25 : Statement .reserved25 := command _ _ _ _ _ _
theorem reserved26 : Statement .reserved26 := command _ _ _ _ _ _
theorem reserved27 : Statement .reserved27 := command _ _ _ _ _ _
theorem reserved28 : Statement .reserved28 := command _ _ _ _ _ _
theorem reserved29 : Statement .reserved29 := command _ _ _ _ _ _
theorem reserved30 : Statement .reserved30 := command _ _ _ _ _ _
theorem reserved31 : Statement .reserved31 := command _ _ _ _ _ _
theorem reqDpW0 : Statement .reqDpW0 := ⟨rfl, fun _ => Decoded.noConfusion⟩
theorem reqDpW4 : Statement .reqDpW4 := ⟨rfl, fun _ => Decoded.noConfusion⟩
theorem reqDpW8 : Statement .reqDpW8 := ⟨rfl, fun _ => Decoded.noConfusion⟩
theorem reqDpWC : Statement .reqDpWC := ⟨rfl, fun _ => Decoded.noConfusion⟩
theorem reqDpR0 : Statement .reqDpR0 := ⟨rfl, fun _ => Decoded.noConfusion⟩
theorem reqDpR4 : Statement .reqDpR4 := ⟨rfl, fun _ => Decoded.noConfusion⟩
theorem reqDpR8 : Statement .reqDpR8 := ⟨rfl, fun _ => Decoded.noConfusion⟩
theorem reqDpRC : Statement .reqDpRC := ⟨rfl, fun _ => Decoded.noConfusion⟩
theorem reqApW0 : Statement .reqApW0 := ⟨rfl, fun _ => Decoded.noConfusion⟩
theorem reqApW4 : Statement .reqApW4 := ⟨rfl, fun _ => Decoded.noConfusion⟩
theorem reqApW8 : Statement .reqApW8 := ⟨rfl, fun _ => Decoded.noConfusion⟩
theorem reqApWC : Statement .reqApWC := ⟨rfl, fun _ => Decoded.noConfusion⟩
theorem reqApR0 : Statement .reqApR0 := ⟨rfl, fun _ => Decoded.noConfusion⟩
theorem reqApR4 : Statement .reqApR4 := ⟨rfl, fun _ => Decoded.noConfusion⟩
theorem reqApR8 : Statement .reqApR8 := ⟨rfl, fun _ => Decoded.noConfusion⟩
theorem reqApRC : Statement .reqApRC := ⟨rfl, fun _ => Decoded.noConfusion⟩
theorem ackProtocolError000 : Statement .ackProtocolError000 := ⟨rfl, fun _ => Decoded.noConfusion⟩
theorem ackOk : Statement .ackOk := ⟨rfl, fun _ => Decoded.noConfusion⟩
theorem ackWait : Statement .ackWait := ⟨rfl, fun _ => Decoded.noConfusion⟩
theorem ackProtocolError011 : Statement .ackProtocolError011 := ⟨rfl, fun _ => Decoded.noConfusion⟩
theorem ackFault : Statement .ackFault := ⟨rfl, fun _ => Decoded.noConfusion⟩
theorem ackProtocolError101 : Statement .ackProtocolError101 := ⟨rfl, fun _ => Decoded.noConfusion⟩
theorem ackProtocolError110 : Statement .ackProtocolError110 := ⟨rfl, fun _ => Decoded.noConfusion⟩
theorem ackProtocolError111 : Statement .ackProtocolError111 := ⟨rfl, fun _ => Decoded.noConfusion⟩
theorem jtagToSwd : Statement .jtagToSwd := ⟨rfl, fun _ => Decoded.noConfusion⟩
theorem selectionAlert : Statement .selectionAlert := ⟨rfl, fun _ => Decoded.noConfusion⟩
theorem activationCode : Statement .activationCode := ⟨rfl, fun _ => Decoded.noConfusion⟩
theorem toDormant : Statement .toDormant := ⟨rfl, fun _ => Decoded.noConfusion⟩

end Sys2Proof.Laws.EncodeLength
end

