-- ==== Sys2Proof/Laws/Sequences.lean ====
section
/-! SUPPORT. What the shared parts of the wire sequences do to a state (41_bitlink_sequences.md), up to the sequencer's count of cycles
(`∃ q, … .withSeq q`), which the command's return clears (10_state.md R31). -/

namespace Sys2Proof.Machine

/-- Cycles after `ensureDriving` (R141): the turnaround owed comes first. -/
theorem wires_ensureDriving (s : State) (cs : List Cycle) (o : Bit) (h : s.link.driving = s.dioOE) :
    ∃ q, (ensureDriving s).wires cs o true = (s.wires (lead s ++ cs) o true).withSeq q := by
  rw [ensureDriving_eq s h]
  cases hd : s.link.driving with
  | true => exact ⟨s.seq, by simp [lead, hd]; rfl⟩
  | false =>
    simp only [Bool.false_eq_true, if_false]
    split
    · next hn => exact ⟨s.seq, by simp [lead, hd, hn, turnaround, State.wires, drive]⟩
    · exact ⟨_, by simp; rfl⟩

theorem ensureDriving_par (s : State) : (ensureDriving s).par = s.par := by
  have : ∀ n i (t : State), (pulses i n t).par = t.par := by
    intro n; induction n with
    | zero => intro i t; rfl
    | succ n ih => intro i t; rw [pulses, ih]; rfl
  unfold ensureDriving
  split
  · rfl
  · exact this _ _ _

/-- The sequencer's bit count is the only trace a `writeBits` leaves besides its cycles. -/
theorem writeBits_wires {w : Nat} (v : BitVec w) (hw : 0 < w) (s : State) :
    ∃ q, writeBits v s = (s.wires (drivenCycles (wireBits v)) (v.getLsbD (w - 1)) true).withSeq q := ⟨_, writeBits_eq v hw s⟩

/-- `lineResetBody` (R120). -/
theorem lineResetBody_eq (s : State) (h : 50 ≤ s.par.lineResetHigh) :
    ∃ q, lineResetBody s = (s.wires (lineResetCycles s.par) (decide (s.par.lineResetIdle = 0)) true).withSeq q := by
  unfold lineResetBody
  rw [cycles_eq true, if_neg (by omega), cycles_eq]
  by_cases hi : s.par.lineResetIdle = 0
  · exact ⟨_, by simp [hi, lineResetCycles, Cycle.driven]; rfl⟩
  · exact ⟨_, by simp [hi, lineResetCycles, Cycle.driven]; rfl⟩

/-- A run of driven cycles, of any length, and then a value (R112, R110). -/
theorem writeBits_cycles {w : Nat} (v : BitVec w) (hw : 0 < w) (b : Bit) (n : Nat) (s : State) :
    ∃ q, writeBits v (cycles b n s) =
      (s.wires (List.replicate n (Cycle.driven b) ++ drivenCycles (wireBits v)) (v.getLsbD (w - 1)) true).withSeq q := by
  rw [writeBits_eq v hw, cycles_eq]
  split
  · next h => subst h; exact ⟨_, by simp; rfl⟩
  · exact ⟨_, by simp; rfl⟩

/-! ### The four bodies, the line's flag agreeing with its driver on entry -/

/-- `lineResetBody` for a state whose parameters are known. -/
theorem lineResetBody_of_par (s : State) (par : Params) (hp : s.par = par) (h : 50 ≤ par.lineResetHigh) :
    ∃ q, lineResetBody s = (s.wires (lineResetCycles par) (decide (par.lineResetIdle = 0)) true).withSeq q := by
  subst hp; exact lineResetBody_eq s h

/-- The body of `lineReset` (R120). -/
theorem lineResetWires_eq (s : State) (hf : s.link.driving = s.dioOE) (h : 50 ≤ s.par.lineResetHigh) :
    ∃ q, lineResetWires s = (s.wires (lead s ++ lineResetCycles s.par) (decide (s.par.lineResetIdle = 0)) true).withSeq q := by
  obtain ⟨q1, e1⟩ := lineResetBody_of_par (ensureDriving s) s.par (ensureDriving_par s) h
  obtain ⟨q2, e2⟩ := wires_ensureDriving s (lineResetCycles s.par) (decide (s.par.lineResetIdle = 0)) hf
  exact ⟨q1, by rw [lineResetWires, e1, e2, withSeq_withSeq]⟩

/-- The body of `switchSequence` (R122). -/
theorem switchWires_eq (s : State) (hf : s.link.driving = s.dioOE) (h : 50 ≤ s.par.lineResetHigh) :
    ∃ q, switchWires s = (s.wires (lead s ++ (drivenCycles (wireBits s.par.jtagToSwd) ++ lineResetCycles s.par))
      (decide (s.par.lineResetIdle = 0)) true).withSeq q := by
  have hp := ensureDriving_par s
  obtain ⟨q1, e1⟩ := writeBits_wires s.par.jtagToSwd (by omega) (ensureDriving s)
  obtain ⟨q2, e2⟩ := lineResetBody_of_par (writeBits s.par.jtagToSwd (ensureDriving s)) s.par
    (by rw [e1, withSeq_par, wires_par, hp]) h
  obtain ⟨q3, e3⟩ := wires_ensureDriving s (drivenCycles (wireBits s.par.jtagToSwd) ++ lineResetCycles s.par)
    (decide (s.par.lineResetIdle = 0)) hf
  exact ⟨q2, by rw [switchWires, e2, e1, withSeq_wires, wires_wires, e3, withSeq_withSeq, withSeq_withSeq]⟩

/-- The body of `dormantWake` (R124). -/
theorem wakeWires_eq (s : State) (hf : s.link.driving = s.dioOE) (h : 50 ≤ s.par.lineResetHigh) :
    ∃ q, wakeWires s = (s.wires (lead s ++ (List.replicate s.par.wakePreCycles (Cycle.driven s.par.wakePreLevel)
        ++ (drivenCycles (wireBits s.par.selectionAlert) ++ (List.replicate s.par.wakeGapCycles (Cycle.driven s.par.wakeGapLevel)
        ++ (drivenCycles (wireBits s.par.activationCode) ++ lineResetCycles s.par)))))
      (decide (s.par.lineResetIdle = 0)) true).withSeq q := by
  have hp := ensureDriving_par s
  obtain ⟨q1, e1⟩ := writeBits_cycles s.par.selectionAlert (by omega) s.par.wakePreLevel s.par.wakePreCycles (ensureDriving s)
  obtain ⟨q2, e2⟩ := writeBits_cycles s.par.activationCode (by omega) s.par.wakeGapLevel s.par.wakeGapCycles
    (((ensureDriving s).wires (List.replicate s.par.wakePreCycles (Cycle.driven s.par.wakePreLevel)
      ++ drivenCycles (wireBits s.par.selectionAlert)) (s.par.selectionAlert.getLsbD (128 - 1)) true).withSeq q1)
  rw [← e1] at e2
  obtain ⟨q3, e3⟩ := lineResetBody_of_par (writeBits s.par.activationCode (cycles s.par.wakeGapLevel s.par.wakeGapCycles
    (writeBits s.par.selectionAlert (cycles s.par.wakePreLevel s.par.wakePreCycles (ensureDriving s))))) s.par (by rw [e2, withSeq_par, wires_par, e1, withSeq_par, wires_par, hp]) h
  obtain ⟨q4, e4⟩ := wires_ensureDriving s (List.replicate s.par.wakePreCycles (Cycle.driven s.par.wakePreLevel)
        ++ (drivenCycles (wireBits s.par.selectionAlert) ++ (List.replicate s.par.wakeGapCycles (Cycle.driven s.par.wakeGapLevel)
        ++ (drivenCycles (wireBits s.par.activationCode) ++ lineResetCycles s.par))))
    (decide (s.par.lineResetIdle = 0)) hf
  refine ⟨q3, ?_⟩
  simp only [wakeWires]
  rw [e3, e2, e1]
  simp only [withSeq_wires, wires_wires, withSeq_withSeq, List.append_assoc, e4]

/-- The body of `dormantEnter` (R127). -/
theorem dormantWires_eq (s : State) (hf : s.link.driving = s.dioOE) :
    ∃ q, dormantWires s = (s.wires (lead s ++ (List.replicate s.par.discHigh .d1 ++ drivenCycles (wireBits s.par.toDormant)))
      (s.par.toDormant.getLsbD 15) true).withSeq q := by
  obtain ⟨q1, e1⟩ := writeBits_cycles s.par.toDormant (by omega) true s.par.discHigh (ensureDriving s)
  obtain ⟨q2, e2⟩ := wires_ensureDriving s (List.replicate s.par.discHigh .d1 ++ drivenCycles (wireBits s.par.toDormant))
    (s.par.toDormant.getLsbD 15) hf
  refine ⟨q1, ?_⟩
  rw [show Cycle.driven true = Cycle.d1 from rfl, show 16 - 1 = 15 from rfl, e2] at e1
  rw [dormantWires, e1, withSeq_withSeq]

/-- A value driven after `ensureDriving` (R85, R145). -/
theorem writeBits_ensureDriving {w : Nat} (v : BitVec w) (hw : 0 < w) (s : State) (hf : s.link.driving = s.dioOE) :
    ∃ q, writeBits v (ensureDriving s) = (s.wires (lead s ++ drivenCycles (wireBits v)) (v.getLsbD (w - 1)) true).withSeq q := by
  obtain ⟨q1, e1⟩ := writeBits_wires v hw (ensureDriving s)
  obtain ⟨q2, e2⟩ := wires_ensureDriving s (drivenCycles (wireBits v)) (v.getLsbD (w - 1)) hf
  exact ⟨q1, by rw [e1, e2, withSeq_withSeq]⟩

end Sys2Proof.Machine
end

