-- ==== Sys2Proof/Tests/Slice0.lean ====
section
/-! SUPPORT. Tests of the model against the spec, and the witnesses of the statements. Expected values are the spec's own: the encodings of
30_encoding.md, and the vectors of 95_test_vectors.md, named in each comment. A test runs one instruction on a small state. A theorem
`witness_<Name>` shows states and operands that meet every hypothesis of `Obligations.<Name>`, one part per clause. -/

open Sys2Proof Sys2Proof.Machine

namespace Sys2Proof.Tests

/-! ### Small states -/

/-- "default" of 95_test_vectors.md: after `init` with pins 4 and 5 and no reset pin. -/
def ready : State :=
  { State.reset with
    cfg := exampleConfig, link := { initialized := true, connected := false, driving := true }, clk := .driven true, dioOut := true,
    dioOE := true, rst := .absent }

/-- The default state with the target's answers. -/
def answering (bs : List Bit) : State := { ready with answers := bs }

/-- After a good read: the line released (10_state.md R27). -/
def released : State := { ready with dioOE := false, link := { ready.link with driving := false } }

/-- After `init` with reset pin 6. -/
def withPin : State :=
  { ready with cfg := { exampleConfig with pinRst := some 6 }, rst := .driven true, rstTrace := [true] }

/-- Another parameter record. -/
def withPar (p : Params) (s : State) : State := { s with par := p }

/-- The next state, or reset where there is none. -/
def after : Host.Outcome State Fault Refusal → State
  | .next t => t
  | _       => State.reset

/-- What a result shows: status, carried outcome, acknowledgement, parity error, attempts. -/
def shown (t : State) : Status × Option FrameOutcome × Option Ack × Bool × Nat :=
  (t.res.status, t.res.info, t.res.ack, t.res.parityError, t.res.attempts)

/-- A trace as 95_test_vectors.md writes it: `0` and `1` driven, `L` and `H` sampled, `z` neither; spaces are only for reading. -/
def wire (text : String) : List Cycle :=
  (text.toList.filter (fun c => !c.isWhitespace)).map (fun c =>
    if c == '0' then .d0 else if c == '1' then .d1 else if c == 'L' then .s0 else if c == 'H' then .s1 else .z)

/-- An oracle script as 95_test_vectors.md writes it. -/
def script (text : String) : List Bit := text.toList.map (fun c => c == 'H')

/-! ### Decoding: words written out from Tables CS, CW, RQ and AK and rules R72 and R86 to R89 -/

/-- Codes 0 to 10, the operand in bit 40. -/
theorem test_decode_bitLink :
    decodeTableWord 48 0x000000000000 = some .init ∧
    decodeTableWord 48 0x080000000000 = some .clockPulse ∧
    decodeTableWord 48 0x110000000000 = some (.driveLine true) ∧
    decodeTableWord 48 0x100000000000 = some (.driveLine false) ∧
    decodeTableWord 48 0x180000000000 = some .releaseLine ∧
    decodeTableWord 48 0x200000000000 = some .readLine ∧
    decodeTableWord 48 0x280000000000 = some (.setResetPin false) ∧
    decodeTableWord 48 0x290000000000 = some (.setResetPin true) ∧
    decodeTableWord 48 0x310000000000 = some (.setConnected true) ∧
    decodeTableWord 48 0x300000000000 = some (.setConnected false) ∧
    decodeTableWord 48 0x380000000000 = some .lineReset ∧
    decodeTableWord 48 0x400000000000 = some .switchSequence ∧
    decodeTableWord 48 0x480000000000 = some .dormantWake ∧
    decodeTableWord 48 0x500000000000 = some .dormantEnter := by decide +kernel

/-- Codes 11 to 16 (programs P1 to P4 give the words of `dpRead`, `dpWrite`, `apRead`, `apWrite` and `clearErrors`). -/
theorem test_decode_registerAccess :
    decodeTableWord 48 0x5C0CDEADBEEF = some (.transfer 0x0C#8 true false 0xDEADBEEF#32) ∧
    decodeTableWord 48 0x5A0400000001 = some (.transfer 0x04#8 false true 0x00000001#32) ∧
    decodeTableWord 48 0x600000000000 = some (.dpRead 0x00#8) ∧
    decodeTableWord 48 0x680800000000 = some (.dpWrite 0x08#8 0x00000000#32) ∧
    decodeTableWord 48 0x680450000000 = some (.dpWrite 0x04#8 0x50000000#32) ∧
    decodeTableWord 48 0x700C00000000 = some (.apRead 0x0C#8) ∧
    decodeTableWord 48 0x780CDEADBEEF = some (.apWrite 0x0C#8 0xDEADBEEF#32) ∧
    decodeTableWord 48 0x780023000052 = some (.apWrite 0x00#8 0x23000052#32) ∧
    decodeTableWord 48 0x800000000000 = some .clearErrors := by decide +kernel

/-- Codes 17 to 31 in bits 47 to 43 (R72). -/
theorem test_decode_reserved :
    decodeTableWord 48 0x880000000000 = some .reserved17 ∧
    decodeTableWord 48 0x900000000000 = some .reserved18 ∧
    decodeTableWord 48 0x980000000000 = some .reserved19 ∧
    decodeTableWord 48 0xA00000000000 = some .reserved20 ∧
    decodeTableWord 48 0xA80000000000 = some .reserved21 ∧
    decodeTableWord 48 0xB00000000000 = some .reserved22 ∧
    decodeTableWord 48 0xB80000000000 = some .reserved23 ∧
    decodeTableWord 48 0xC00000000000 = some .reserved24 ∧
    decodeTableWord 48 0xC80000000000 = some .reserved25 ∧
    decodeTableWord 48 0xD00000000000 = some .reserved26 ∧
    decodeTableWord 48 0xD80000000000 = some .reserved27 ∧
    decodeTableWord 48 0xE00000000000 = some .reserved28 ∧
    decodeTableWord 48 0xE80000000000 = some .reserved29 ∧
    decodeTableWord 48 0xF00000000000 = some .reserved30 ∧
    decodeTableWord 48 0xF80000000000 = some .reserved31 := by decide +kernel

/-- The column "wire" of vectors HD1 to HD16, read from its last bit to its first. -/
theorem test_decode_headers :
    decodeTableWord 8 0b10000001 = some .reqDpW0 ∧
    decodeTableWord 8 0b10101001 = some .reqDpW4 ∧
    decodeTableWord 8 0b10110001 = some .reqDpW8 ∧
    decodeTableWord 8 0b10011001 = some .reqDpWC ∧
    decodeTableWord 8 0b10100101 = some .reqDpR0 ∧
    decodeTableWord 8 0b10001101 = some .reqDpR4 ∧
    decodeTableWord 8 0b10010101 = some .reqDpR8 ∧
    decodeTableWord 8 0b10111101 = some .reqDpRC ∧
    decodeTableWord 8 0b10100011 = some .reqApW0 ∧
    decodeTableWord 8 0b10001011 = some .reqApW4 ∧
    decodeTableWord 8 0b10010011 = some .reqApW8 ∧
    decodeTableWord 8 0b10111011 = some .reqApWC ∧
    decodeTableWord 8 0b10000111 = some .reqApR0 ∧
    decodeTableWord 8 0b10101111 = some .reqApR4 ∧
    decodeTableWord 8 0b10110111 = some .reqApR8 ∧
    decodeTableWord 8 0b10011111 = some .reqApRC := by decide +kernel

/-- Vectors AK1 to AK8. -/
theorem test_decode_acks :
    decodeTableWord 3 0b000 = some .ackProtocolError000 ∧
    decodeTableWord 3 0b001 = some .ackOk ∧
    decodeTableWord 3 0b010 = some .ackWait ∧
    decodeTableWord 3 0b011 = some .ackProtocolError011 ∧
    decodeTableWord 3 0b100 = some .ackFault ∧
    decodeTableWord 3 0b101 = some .ackProtocolError101 ∧
    decodeTableWord 3 0b110 = some .ackProtocolError110 ∧
    decodeTableWord 3 0b111 = some .ackProtocolError111 := by decide +kernel

/-- The traces of vectors SQ3, SQ4 and SQ5, read from their last bit to their first. -/
theorem test_decode_constants :
    decodeTableWord 16 0b1110011110011110 = some .jtagToSwd ∧
    decodeTableWord 128 0x19BC0EA2E3DDAFE986852D956209F392 = some .selectionAlert ∧
    decodeTableWord 8 0b00011010 = some .activationCode ∧
    decodeTableWord 16 0b1110001110111100 = some .toDormant := by decide +kernel

/-- Bytes that are no word of the table are rejected by name. -/
theorem test_decode_rejects :
    decode [] = .rejected (.badLength 0) ∧ decode [0#8, 0#8, 0#8] = .rejected (.badLength 3) ∧
    decode [0x80#8] = .rejected (.notAWireByte 0x80) ∧ decode [0x08#8] = .rejected (.notAWireByte 8) ∧
    decode [0x9E#8, 0xE8#8] = .rejected (.notAWire16 0xE89E) ∧
    decode (List.replicate 16 0#8) = .rejected (.notAWire128 0) := by decide +kernel

/-- The bytes of `apWrite(0xC, 0xDEADBEEF)` (program P4), least significant first. -/
theorem test_encode_bytes :
    encode (.apWrite 0x0C#8 0xDEADBEEF#32) = [0xEF#8, 0xBE#8, 0xAD#8, 0xDE#8, 0x0C#8, 0x78#8] ∧
    decode [0xEF#8, 0xBE#8, 0xAD#8, 0xDE#8, 0x0C#8, 0x78#8] = .instr (.apWrite 0x0C#8 0xDEADBEEF#32) := by decide +kernel

/-! ### Well-formedness: one ill-formed term for each check (R90) -/

/-- R90 (a): the first and the last reserved code. -/
theorem test_wellFormed_refuses_reserved :
    Instr.reserved17.wellFormed = false ∧ Instr.reserved31.wellFormed = false ∧ Instr.clearErrors.wellFormed = true := by decide +kernel

/-- R90 (b): a misaligned address in each of the five commands that take one (vectors TR12 and RG18 among them). -/
theorem test_wellFormed_refuses_misaligned :
    (Instr.transfer 0x02#8 false true 0#32).wellFormed = false ∧ (Instr.dpRead 0x01#8).wellFormed = false ∧
    (Instr.dpWrite 0x06#8 1#32).wellFormed = false ∧ (Instr.apRead 0x03#8).wellFormed = false ∧
    (Instr.apWrite 0x0F#8 0#32).wellFormed = false ∧ (Instr.apRead 0xFC#8).wellFormed = true := by decide +kernel

/-- R90 (e): vectors BL1 to BL4; a pin that is not good stands for `pinOK(5)` false. -/
theorem test_configOk :
    configOk tableP { pinClk := 4, pinDio := 5, pinRst := none, halfDelay := 0 } = true ∧
    configOk tableP { pinClk := 4, pinDio := 4, pinRst := none, halfDelay := 0 } = false ∧
    configOk tableP { pinClk := 4, pinDio := 5, pinRst := some 5, halfDelay := 0 } = false ∧
    configOk tableP { pinClk := 4, pinDio := 5, pinRst := some 4, halfDelay := 0 } = false ∧
    configOk { tableP with pinsOk := [4, 6] } { pinClk := 4, pinDio := 5, pinRst := none, halfDelay := 0 } = false ∧
    configOk tableP { pinClk := 4, pinDio := 5, pinRst := some 6, halfDelay := 3 } = true := by decide +kernel

/-- R120: 50 cycles are accepted and 49 are not; R55: a misaligned fixed address is not. -/
theorem test_paramsLegal :
    paramsLegal tableP = true ∧ paramsLegal { tableP with lineResetHigh := 49 } = false ∧
    paramsLegal { tableP with dpAbortAddr := 0x02#8 } = false ∧ paramsLegal { tableP with dpRdbuffAddr := 0x0D#8 } = false := by decide +kernel

/-! ### Headers, parity -/

/-- Vectors HD6, HD12 and HD17. -/
theorem test_header :
    header tableP false true 0x04#8 = 0x8D#8 ∧ header tableP true false 0x0C#8 = 0xBB#8 ∧
    header tableP false true 0xFC#8 = 0xBD#8 := by decide +kernel

/-- Vectors PA1 to PA10. -/
theorem test_parity32 :
    [0x00000000#32, 0x00000001#32, 0x80000000#32, 0xFFFFFFFF#32, 0x7FFFFFFF#32, 0x2BA01477#32, 0x0000001F#32, 0x50000000#32,
      0xDEADBEEF#32, 0x00010001#32].map parity32 = [false, true, true, false, true, false, true, false, false, false] := by decide +kernel

/-! ### Bit-link primitives (vectors BL) -/

/-- BL1, BL14: from before the first `init`. -/
theorem test_init :
    let c : LinkConfig := { pinClk := 4, pinDio := 5, pinRst := some 6, halfDelay := 3 }
    after (exec .init State.reset) = { ready with res := (after (exec .init State.reset)).res, free := 1 } ∧
    (after (exec .init { State.reset with op := { State.reset.op with config := c } })).rstTrace = [true] := ⟨rfl, rfl⟩

/-- BL2: a bad configuration leaves the machine uninitialised. -/
theorem test_init_bad :
    let t := after (exec .init { State.reset with op := { State.reset.op with config := { exampleConfig with pinDio := 4 } } })
    shown t = (.error .invalidArgument, none, none, false, 0) ∧ t.link.initialized = false ∧ t.clk = .notDriven := by decide +kernel

/-- BL6. -/
theorem test_clockPulse :
    (after (exec .clockPulse ready)).trace = [.d1] ∧ (after (exec .clockPulse released)).trace = [.z] := by decide +kernel

/-- BL9: the sample belongs to the first cycle only. -/
theorem test_clockPulse_sampled :
    let t := after (exec .clockPulse { released with sampled := some true })
    t.trace = [.s1] ∧ t.sampled = none := by decide +kernel

/-- BL7, BL12: level, driver and flag together, no cycle. -/
theorem test_driveLine :
    let t := after (exec (.driveLine false) released)
    t.dioOut = false ∧ t.dioOE = true ∧ t.link.driving = true ∧ t.trace = [] := by decide +kernel

/-- BL8: the latch keeps its level. -/
theorem test_releaseLine :
    let t := after (exec .releaseLine ready)
    t.dioOut = true ∧ t.dioOE = false ∧ t.link.driving = false ∧ t.trace = [] := by decide +kernel

/-- BL9, BL10: the oracle's answer, remembered. -/
theorem test_readLine :
    let t := after (exec .readLine { released with answers := [false, true] })
    t.res.bit = false ∧ t.sampled = some false ∧ t.answers = [true] ∧ t.trace = [] := by decide +kernel

/-- BL11: while driving the oracle is not asked and nothing is remembered. -/
theorem test_readLine_driving :
    let t := after (exec .readLine (answering [true]))
    t.res.status = .ok ∧ t.sampled = none ∧ t.answers = [true] ∧ t.dioOE = true := by decide +kernel

/-- BL14. -/
theorem test_setResetPin :
    let t := after (exec (.setResetPin false) withPin)
    t.rst = .driven false ∧ t.rstTrace = [true, false] ∧ t.res.status = .ok := by decide +kernel

/-- BL13. -/
theorem test_setResetPin_absent :
    let t := after (exec (.setResetPin false) ready)
    shown t = (.error .invalidArgument, none, none, false, 0) ∧ t.rst = .absent ∧ t.rstTrace = [] := by decide +kernel

/-- BL15. -/
theorem test_setConnected :
    (after (exec (.setConnected true) ready)).link = { initialized := true, connected := true, driving := true } ∧
    (after (exec (.setConnected false) { ready with link := { ready.link with connected := true } })).link = ready.link := by decide +kernel

/-- BL5: the state check comes before the address check. -/
theorem test_notInitialised :
    [Instr.clockPulse, .driveLine true, .readLine, .lineReset, .transfer 0x01#8 false true 0#32, .dpRead 0x00#8, .clearErrors,
      .setConnected true].map (fun i => shown (after (exec i State.reset))) =
    List.replicate 8 (.error .invalidState, none, none, false, 0) := by decide +kernel

/-- R72: a reserved code, initialised or not. -/
theorem test_reserved :
    shown (after (exec .reserved17 State.reset)) = (.error .invalidArgument, none, none, false, 0) ∧
    shown (after (exec .reserved31 ready)) = (.error .invalidArgument, none, none, false, 0) ∧
    (after (exec .reserved24 ready)).trace = [] := by decide +kernel

/-! ### Wire-reset and wake sequences (vectors SQ) -/

/-- SQ1. -/
theorem test_lineReset :
    let t := after (exec .lineReset ready)
    t.trace = wire "11111111111111111111111111111111111111111111111111 00" ∧
    t.dioOut = false ∧ t.link.driving = true ∧ t.res.status = .ok := by decide +kernel

/-- SQ3. -/
theorem test_switchSequence :
    let t := after (exec .switchSequence ready)
    t.trace = wire "0111100111100111 11111111111111111111111111111111111111111111111111 00" ∧
    t.dioOut = false := by decide +kernel

/-- SQ4. -/
theorem test_dormantWake :
    let t := after (exec .dormantWake ready)
    t.trace = wire "11111111 01001001 11001111 10010000 01000110 10101001 10110100 10100001 01100001 10010111 11110101 10111011 11000111
      01000101 01110000 00111101 10011000 0000 01011000 11111111111111111111111111111111111111111111111111 00" ∧
    t.trace.length = 200 ∧ t.dioOut = false := by decide +kernel

/-- SQ6 and SQ7: `WAKE_PRE_LEVEL` 0, the line released. -/
theorem test_dormantWake_preLevel :
    let t := after (exec .dormantWake (withPar { tableP with wakePreLevel := false } released))
    t.trace.take 9 = [.z] ++ List.replicate 8 .d0 ∧ t.trace.length = 201 := by decide +kernel

/-- SQ5. -/
theorem test_dormantEnter :
    let t := after (exec .dormantEnter ready)
    t.trace = wire "111111111111111111111111111111111111111111111111111111111111 0011110111000111" ∧
    t.dioOut = true ∧ t.link.connected = false := by decide +kernel

/-! ### `transfer` (vectors TR) -/

/-- TR1. -/
theorem test_transfer_read :
    let t := after (exec (.transfer 0x00#8 false true 0#32) (answering (script "HLLHHHLHHHLLLHLHLLLLLLLLHLHHHLHLHLLL")))
    t.trace = wire "10100101 z HLL HHHLHHHLLLHLHLLLLLLLLHLHHHLHLHLL L" ∧
    shown t = (.ok, some (.okData 0x2BA01477#32), some .ok, false, 0) ∧ t.res.rdata = 0x2BA01477#32 ∧
    t.link.driving = false ∧ t.dioOut = true ∧ t.answers = [] := by decide +kernel

/-- TR3. -/
theorem test_transfer_write :
    let t := after (exec (.transfer 0x0C#8 true false 0xDEADBEEF#32) (answering [true, false, false]))
    t.trace = wire "11011101 z HLL z 11110111011111011011010101111011 0" ∧
    shown t = (.ok, some .ok, some .ok, false, 0) ∧ t.link.driving = true ∧ t.dioOut = false := by decide +kernel

/-- R154: `seq.bit` counts from 0 inside `LEAD`, `TRN1` and `POST` too: the last of 3, 2 and 8 cycles. -/
theorem test_seq_bit :
    (ensureDriving ((withPar { tableP with trn := 3 } released).enter .lead)).seq = { phase := .lead, bit := 2, attempt := 0 } ∧
    (turnToTarget ((withPar { tableP with trn := 2 } ready).enter .trn1)).seq = { phase := .trn1, bit := 1, attempt := 0 } ∧
    (postIdle (withPar { tableP with postIdle := 8 } ready)).seq = { phase := .post, bit := 7, attempt := 0 } := by decide +kernel

/-! ### Register commands and the retry engine (vectors RG) -/

/-- RG1: two `WAIT`, then the word. -/
theorem test_dpRead_waits :
    let t := after (exec (.dpRead 0x00#8) (answering (script "LHLLHLHLLHHHLHHHLLLHLHLLLLLLLLHLHHHLHLHLLL")))
    shown t = (.ok, none, some .ok, false, 3) ∧ t.res.rdata = 0x2BA01477#32 ∧
    t.trace.length = 137 ∧ t.link.driving = false ∧ t.answers = [] := by decide +kernel

/-- RG6. -/
theorem test_dpRead_abortFails :
    let t := after (exec (.dpRead 0x04#8) (answering (script "LLHLLH")))
    t.trace = wire "10110001 z LLH z 00000000000000000000000000000000 1 10000001 z LLH z 00000000000000000000000000000000 1" ∧
    shown t = (.error .protocolFault, some .fault, some .fault, false, 1) := by decide +kernel

/-- RG4: the fault is cleared and the request repeated. -/
theorem test_dpWrite_fault :
    let t := after (exec (.dpWrite 0x04#8 0x50000000#32) (answering (script "LLHHLLHLL")))
    t.trace = wire "10010101 z LLH z 00000000000000000000000000000000 1 10000001 z HLL z 11111000000000000000000000000000 1 10010101 z HLL z
      00000000000000000000000000001010 0" ∧
    shown t = (.ok, none, some .ok, false, 2) := by decide +kernel

/-- RG18. -/
theorem test_dpWrite_misaligned :
    let t := after (exec (.dpWrite 0x06#8 1#32) ready)
    t.trace = [] ∧
    shown t = (.error .invalidArgument, none, none, false, 0) := by decide +kernel

/-- RG12: the first word is discarded. -/
theorem test_apRead :
    let t := after (exec (.apRead 0x0C#8) (answering (script "HLLLLLLLLLLLLLLLLLLLLLLLLLLLLLLLLLLLHLLHLHHLLLLLLLLHHHHLHHHHHHHLHLHLLHHL")))
    t.trace = wire "11111001 z HLL LLLLLLLLLLLLLLLLLLLLLLLLLLLLLLLL L z 10111101 z HLL HLHHLLLLLLLLHHHHLHHHHHHHLHLHLLHH L" ∧
    shown t = (.ok, none, some .ok, false, 2) ∧ t.res.rdata = 0xCAFEF00D#32 := by decide +kernel

/-- RG13: attempts sum over both loops. -/
theorem test_apRead_waits :
    let t := after (exec (.apRead 0x00#8) (answering (script
      "LHLHLLHLLLHLLLHLLLHLLLHLLLHLLLHLLLHLLLLLHLHLLLHLLLLHLLLLLLLLLLLLLLLLLLLLLLLLLL")))
    shown t = (.ok, none, some .ok, false, 4) ∧ t.res.rdata = 0x00000042#32 ∧ t.trace.length = 183 := by decide +kernel

/-- RG19. -/
theorem test_apWrite_afterRead :
    let t := after (exec (.apWrite 0x04#8 0x20000000#32) (released.leaving [true, false, false]))
    t.trace = wire "z 11010001 z HLL z 00000000000000000000000000000100 1" ∧
    shown t = (.ok, none, some .ok, false, 1) := by decide +kernel

/-- RG11, with `RETRY_BOUND` 2: `NONRETRY_POLICY` retry. -/
theorem test_apWrite_retryPolicy :
    let t := after (exec (.apWrite 0x04#8 0#32) (withPar { tableP with nonretryPolicy := .retry, retryBound := 2 } (answering (List.replicate
      6 true))))
    shown t = (.error .protocolTimeout, some .protocolError, some .protocolError, false, 2) ∧ t.trace.length = 92 := by decide +kernel

/-- RG16. -/
theorem test_clearErrors :
    let t := after (exec .clearErrors (answering [true, false, false]))
    t.trace = wire "10000001 z HLL z 11111000000000000000000000000000 1" ∧
    shown t = (.ok, none, some .ok, false, 0) := by decide +kernel

/-- RG17: one frame only. -/
theorem test_clearErrors_wait :
    let t := after (exec .clearErrors (answering (List.replicate 40 false |>.set 1 true)))
    shown t = (.error .protocolTimeout, some .wait, some .wait, false, 0) ∧ t.trace.length = 46 := by decide +kernel

/-! ### Wire formats presented alone: the bits of Tables RQ and AK and rules R86 to R89 (assumptions 9 to 11) -/

/-- The column "wire" of vectors HD1 to HD16. -/
theorem test_headerRows :
    [Instr.reqDpW0, .reqDpW4, .reqDpW8, .reqDpWC, .reqDpR0, .reqDpR4, .reqDpR8, .reqDpRC, .reqApW0, .reqApW4, .reqApW8, .reqApWC, .reqApR0,
      .reqApR4, .reqApR8, .reqApRC].map (fun i => (after (exec i ready)).trace) =
    [wire "10000001",
      wire "10010101",
      wire "10001101",
      wire "10011001",
      wire "10100101",
      wire "10110001",
      wire "10101001",
      wire "10111101",
      wire "11000101",
      wire "11010001",
      wire "11001001",
      wire "11011101",
      wire "11100001",
      wire "11110101",
      wire "11101101",
      wire "11111001"] := by decide +kernel

/-- Vectors AK1 to AK8, from the default state. -/
theorem test_ackRows :
    [Instr.ackProtocolError000, .ackOk, .ackWait, .ackProtocolError011, .ackFault, .ackProtocolError101, .ackProtocolError110,
      .ackProtocolError111].map (fun i => (after (exec i ready)).res.ack) =
    [some .protocolError, some .ok, some .wait, some .protocolError, some .fault, some .protocolError, some .protocolError,
      some .protocolError] ∧
    (after (exec .ackWait ready)).trace = [.z, .s0, .s1, .s0] := by decide +kernel

/-- SQ3, SQ4 (activation code) and SQ5. -/
theorem test_constantRows :
    (after (exec .jtagToSwd ready)).trace = wire "0111100111100111" ∧
    (after (exec .activationCode ready)).trace = wire "01011000" ∧
    (after (exec .toDormant ready)).trace = wire "0011110111000111" := by decide +kernel

/-- SQ4, the alert. -/
theorem test_selectionAlert :
    (after (exec .selectionAlert ready)).trace = wire
      "01001001110011111001000001000110101010011011010010100001011000011001011111110101101110111100011101000101011100000011110110011000" := by decide +kernel

/-! ### The step -/

/-- A word presented first after reset runs, and the word after it stays (70_reset_and_hazards.md R220; assumption 1). -/
theorem test_step_init :
    let t := after (step (State.reset.withFetchWord 48 0x000000000000))
    t.link = { initialized := true, connected := false, driving := true } ∧ t.port = [] ∧ step State.reset = .next State.reset := by
  refine ⟨rfl, rfl, rfl⟩

/-- The configuration port (R71): BL14's `init`. -/
theorem test_step_config :
    let c : LinkConfig := { pinClk := 4, pinDio := 5, pinRst := some 6, halfDelay := 3 }
    let t := after (step { State.reset with port := [{ bytes := encode .init, config := some c }] })
    t.cfg = c ∧ t.rst = .driven true ∧ t.rstTrace = [true] := by decide +kernel

/-- The two stops of the step that a state can show, and the third on bytes that are no word. -/
theorem test_step_stops :
    (match step { State.reset with par := { tableP with lineResetHigh := 49 } } with
      | .fault .illegalParameters => true | _ => false) = true ∧
    (match step { State.reset with busy := true } with | .refused .hostWhileBusy => true | _ => false) = true ∧
    (match step { State.reset with port := [{ bytes := [0#8, 0#8, 0#8], config := none }] } with
      | .refused (.undecodable _) => true | _ => false) = true := by decide +kernel

/-! ### Witnesses: states and operands that meet the hypotheses of the statements -/

theorem inv_ready (p : List PortWord) : Inv { ready with port := p } where
  legal := (by decide : paramsLegal tableP = true)
  notBusy := rfl
  seqIdle := rfl
  flagIsDriver := rfl
  clock := rfl
  resetAbsent := fun _ _ => rfl
  resetDriven := fun _ h => absurd rfl h
  resetTrace := fun _ h => by cases h
  configGood := fun _ => rfl
  untouched := fun h => by cases h
  attempts := Nat.zero_le _
  classes := List.mem_cons_self

theorem acks_distinct : AcksDistinct tableP := ⟨by decide, by decide, by decide⟩

theorem ready_ready : Ready ready := ⟨rfl, rfl⟩
theorem ready_released : Ready released := ⟨rfl, rfl⟩
theorem ready_answering (bs : List Bit) : Ready (answering bs) := ⟨rfl, rfl⟩

/-- `clockPulse` waiting at the port, which is what `withFetchWord 48 0x080000000000` places there. -/
def pulseWord : PortWord := portWordOf 48 0x080000000000

theorem witness_StepKeepsInvariant :
    ∃ s t : State, Inv s ∧ step s = .next t ∧ t.trace = [.d1] :=
  ⟨{ ready with port := [pulseWord] }, _, inv_ready _, rfl, by decide +kernel⟩

theorem witness_StepRunsDecoded :
    ∃ (s : State) (w : PortWord) (rest : List PortWord) (i : Instr), paramsLegal s.par = true ∧ s.busy = false ∧ s.port = w :: rest ∧
      decode w.bytes = .instr i ∧ w.config ≠ none :=
  ⟨{ ready with port := [{ bytes := encode .init, config := some withPin.cfg }, pulseWord] }, _, _, .init, by decide, rfl, rfl,
    by decide +kernel, by decide⟩

theorem witness_FetchedWordRuns :
    ∃ (s : State) (nbits w : Nat) (i : Instr), paramsLegal s.par = true ∧ s.busy = false ∧ decodeTableWord nbits w = some i :=
  ⟨State.reset, 3, 0b100, .ackFault, by decide, rfl, by decide +kernel⟩

/-- The four clauses, the last at the boundary 49. -/
theorem witness_StepWithoutCommand :
    (paramsLegal ready.par = true ∧ ready.busy = false ∧ ready.port = []) ∧
    (∃ s : State, paramsLegal s.par = true ∧ s.busy = true) ∧
    (∃ s : State, paramsLegal s.par = true ∧ s.busy = false ∧ ∃ w rest e, s.port = w :: rest ∧ decode w.bytes = .rejected e) ∧
    ∃ s : State, s.par.lineResetHigh < 50 :=
  ⟨⟨by decide, rfl, rfl⟩, ⟨{ ready with busy := true }, by decide, rfl⟩,
    ⟨{ ready with port := [{ bytes := [0x80#8], config := none }] }, by decide, rfl, _, _, .notAWireByte 0x80, rfl, by decide +kernel⟩,
    ⟨withPar { tableP with lineResetHigh := 49 } ready, by decide⟩⟩

/-- The first and the last reserved code. -/
theorem witness_ReservedCodes :
    17 ≤ (cwCode 0x880000000000#48).toNat ∧ 17 ≤ (cwCode 0xFFFFFFFFFFFF#48).toNat ∧ ¬17 ≤ (cwCode 0x87FFFFFFFFFF#48).toNat := by
  decide +kernel

theorem witness_ReservedConstructors :
    Instr.reserved31 ∈ [Instr.reserved17, .reserved18, .reserved19, .reserved20, .reserved21, .reserved22, .reserved23, .reserved24,
      .reserved25, .reserved26, .reserved27, .reserved28, .reserved29, .reserved30, .reserved31] := by decide +kernel

theorem witness_AckDecoding : AcksDistinct tableP := acks_distinct

theorem witness_ParityLaws : ∃ i : Nat, i < 32 ∧ ¬i + 1 < 32 := ⟨31, by decide, by decide⟩

theorem witness_Init :
    (configOk State.reset.par State.reset.op.config = true) ∧
    ∃ s : State, configOk s.par s.op.config = false :=
  ⟨by decide, { ready with op := { ready.op with config := { exampleConfig with pinDio := 4 } } }, by decide⟩

/-- Both clauses of `ClockPulse`, `DriveLine`, `ReleaseLine` and `SetConnected`. -/
theorem witness_initialized : ready.link.initialized = true ∧ State.reset.link.initialized = false := ⟨rfl, rfl⟩
theorem witness_ClockPulse : ready.link.initialized = true ∧ State.reset.link.initialized = false := witness_initialized
theorem witness_DriveLine : ready.link.initialized = true ∧ State.reset.link.initialized = false := witness_initialized
theorem witness_ReleaseLine : ready.link.initialized = true ∧ State.reset.link.initialized = false := witness_initialized
theorem witness_SetConnected : ready.link.initialized = true ∧ State.reset.link.initialized = false := witness_initialized

theorem witness_ReadLine :
    (∃ s : State, s.link.initialized = true ∧ s.dioOE = false ∧ ∃ b rest, s.answers = b :: rest) ∧
    (released.link.initialized = true ∧ released.dioOE = false ∧ released.answers = []) ∧
    (ready.link.initialized = true ∧ ready.dioOE = true) ∧ State.reset.link.initialized = false :=
  ⟨⟨released.leaving [true], rfl, rfl, true, [], rfl⟩, ⟨rfl, rfl, rfl⟩, ⟨rfl, rfl⟩, rfl⟩

theorem witness_SetResetPin :
    (withPin.link.initialized = true ∧ withPin.cfg.pinRst ≠ none) ∧ (ready.link.initialized = true ∧ ready.cfg.pinRst = none) ∧
    State.reset.link.initialized = false := ⟨⟨rfl, by decide⟩, ⟨rfl, rfl⟩, rfl⟩

/-- The boundary of the two clauses: 50 and 49. -/
theorem witness_LineReset :
    (Ready ready ∧ 50 ≤ ready.par.lineResetHigh ∧ ready.par.lineResetHigh = 50) ∧ State.reset.link.initialized = false ∧
    ∃ s : State, s.par.lineResetHigh < 50 ∧ s.par.lineResetHigh = 49 :=
  ⟨⟨ready_ready, by decide, rfl⟩, rfl, withPar { tableP with lineResetHigh := 49 } ready, by decide, rfl⟩

theorem witness_SwitchSequence : (Ready released ∧ 50 ≤ released.par.lineResetHigh) ∧ State.reset.link.initialized = false :=
  ⟨⟨ready_released, by decide⟩, rfl⟩
theorem witness_DormantWake : (Ready released ∧ 50 ≤ released.par.lineResetHigh) ∧ State.reset.link.initialized = false :=
  ⟨⟨ready_released, by decide⟩, rfl⟩
theorem witness_DormantEnter : Ready released ∧ State.reset.link.initialized = false := ⟨ready_released, rfl⟩

/-- Every one of the four rows, from the released line. -/
theorem witness_SequencesCommon :
    Ready released ∧ 50 ≤ released.par.lineResetHigh ∧
    ([(Instr.lineReset, 52), (.switchSequence, 68), (.dormantWake, 200), (.dormantEnter, 76)] : List (Instr × Nat)) =
      [(Instr.lineReset, released.par.lineResetHigh + released.par.lineResetIdle),
        (.switchSequence, 16 + (released.par.lineResetHigh + released.par.lineResetIdle)),
        (.dormantWake, released.par.wakePreCycles + 128 + released.par.wakeGapCycles + 8
          + (released.par.lineResetHigh + released.par.lineResetIdle)),
        (.dormantEnter, released.par.discHigh + 16)] := ⟨ready_released, by decide, rfl⟩

/-- Both directions, with a turnaround and without one, and with a sample outstanding. -/
theorem witness_Turnaround :
    (ready.link.driving = ready.dioOE ∧ ready.link.driving = true ∧ ready.par.trn = 1) ∧
    (released.link.driving = released.dioOE ∧ released.link.driving = false) ∧
    (∃ s : State, s.link.driving = s.dioOE ∧ s.link.driving = true ∧ s.par.trn = 0) ∧
    ∃ s : State, s.link.driving = s.dioOE ∧ s.link.driving = false ∧ s.sampled = some true :=
  ⟨⟨rfl, rfl, rfl⟩, ⟨rfl, rfl⟩, ⟨withPar { tableP with trn := 0 } ready, rfl, rfl, rfl⟩,
    { released with sampled := some true }, rfl, rfl, rfl⟩

theorem witness_TransferRead :
    ∃ (s : State) (addr : Addr) (w : Word32) (a : BitVec 3) (rest : List Bit), Ready s ∧ aligned addr = true ∧
      decodeAck s.par a = .ok ∧ s.answers = wireBits a ++ wireBits w ++ parity32 w :: rest :=
  ⟨answering (wireBits 0b001#3 ++ wireBits 0x2BA01477#32 ++ parity32 0x2BA01477#32 :: [true]), 0xFC#8, 0x2BA01477#32, 0b001#3, [true],
    ready_answering _, by decide, by decide, rfl⟩

theorem witness_TransferParityError :
    ∃ (s : State) (addr : Addr) (w : Word32) (a : BitVec 3) (rest : List Bit), Ready s ∧ aligned addr = true ∧
      decodeAck s.par a = .ok ∧ s.answers = wireBits a ++ wireBits w ++ (!parity32 w) :: rest :=
  ⟨answering (wireBits 0b001#3 ++ wireBits 0x2BA01477#32 ++ (!parity32 0x2BA01477#32) :: []), 0x00#8, 0x2BA01477#32, 0b001#3, [],
    ready_answering _, by decide, by decide, rfl⟩

theorem witness_TransferWrite :
    ∃ (s : State) (addr : Addr) (a : BitVec 3) (rest : List Bit), Ready s ∧ aligned addr = true ∧
      decodeAck s.par a = .ok ∧ s.answers = wireBits a ++ rest :=
  ⟨answering (wireBits 0b001#3 ++ []), 0x04#8, 0b001#3, [], ready_answering _, by decide, by decide, rfl⟩

/-- `WAIT`, `FAULT`, and a value that is no code. -/
theorem witness_TransferDrain :
    ∃ (s1 s2 s3 : State) (addr : Addr) (rest : List Bit), (Ready s1 ∧ Ready s2 ∧ Ready s3) ∧ aligned addr = true ∧
      (decodeAck s1.par 0b010#3 = .wait ∧ s1.answers = wireBits 0b010#3 ++ rest) ∧
      (decodeAck s2.par 0b100#3 = .fault ∧ s2.answers = wireBits 0b100#3 ++ rest) ∧
      (decodeAck s3.par 0b111#3 = .protocolError ∧ s3.answers = wireBits 0b111#3 ++ rest) :=
  ⟨answering (wireBits 0b010#3 ++ []), answering (wireBits 0b100#3 ++ []), answering (wireBits 0b111#3 ++ []), 0x0C#8, [],
    ⟨ready_answering _, ready_answering _, ready_answering _⟩, by decide, ⟨by decide, rfl⟩, ⟨by decide, rfl⟩, ⟨by decide, rfl⟩⟩

/-- All three misaligned remainders; and two addresses that differ only in the ignored bits. -/
theorem witness_RegisterAddress :
    (ready.link.initialized = true ∧ (0x01#8).extractLsb' 0 2 ≠ 0#2 ∧ (0x06#8).extractLsb' 0 2 ≠ 0#2 ∧
      (0xFF#8).extractLsb' 0 2 ≠ 0#2) ∧
    (0xFC#8).extractLsb' 2 2 = (0x0C#8).extractLsb' 2 2 := by decide +kernel

/-- A read, and a write answered `FAULT` (vector TR5). -/
theorem witness_DataOperandIgnored :
    ({ addr := 0x00#8, isAP := false, isRead := true, data := 7#32 } : Request).isRead = true ∧
    (frame { addr := 0x08#8, isAP := false, isRead := false, data := 0x12345678#32 } (answering (script "LLH"))).1 ≠ .ok := by
  decide +kernel

/-- Nine attempts that fail in both ways, the most the default bound allows (vector RG3). -/
def nine : List Setback := List.replicate 8 .wait ++ [.cleared]

theorem witness_DpReadReturnsWord :
    ∃ (s : State) (addr : Addr) (h : List Setback) (w : Word32) (rest : List Bit), Ready s ∧ AcksDistinct s.par ∧
      aligned addr = true ∧ h.length < s.par.retryBound ∧ ¬h.length + 1 < s.par.retryBound ∧
      s.answers = setbackAnswers s.par h ++ wireBits s.par.ackOk ++ wireBits w ++ parity32 w :: rest :=
  ⟨answering (setbackAnswers tableP nine ++ wireBits tableP.ackOk ++ wireBits 1#32 ++ parity32 1#32 :: []), 0x00#8, nine, 1#32, [],
    ready_answering _, acks_distinct, by decide, by decide, by decide, rfl⟩

theorem witness_WritesReturnOk :
    ∃ (s : State) (addr : Addr) (h : List Setback) (rest : List Bit), Ready s ∧ AcksDistinct s.par ∧
      aligned addr = true ∧ h.length < s.par.retryBound ∧ s.answers = setbackAnswers s.par h ++ wireBits s.par.ackOk ++ rest :=
  ⟨answering (setbackAnswers tableP [.cleared] ++ wireBits tableP.ackOk ++ []), 0x04#8, [.cleared], [], ready_answering _,
    acks_distinct, by decide, by decide, rfl⟩

theorem witness_ApReadReturnsBufferedWord :
    ∃ (s : State) (addr : Addr) (h g : List Setback) (stale w : Word32) (rest : List Bit), Ready s ∧ AcksDistinct s.par ∧
      aligned addr = true ∧ h.length < s.par.retryBound ∧ g.length < s.par.retryBound ∧
      s.answers = setbackAnswers s.par h ++ wireBits s.par.ackOk ++ wireBits stale ++ parity32 stale ::
        (setbackAnswers s.par g ++ wireBits s.par.ackOk ++ wireBits w ++ parity32 w :: rest) :=
  ⟨answering (setbackAnswers tableP [.wait] ++ wireBits tableP.ackOk ++ wireBits 0x11111111#32 ++ parity32 0x11111111#32 ::
      (setbackAnswers tableP nine ++ wireBits tableP.ackOk ++ wireBits 0x42#32 ++ parity32 0x42#32 :: [])), 0x00#8, [.wait], nine,
    0x11111111#32, 0x42#32, [], ready_answering _, acks_distinct, by decide, by decide, by decide, rfl⟩

/-- Vectors RG2 and RG5 mixed, for each of the three commands that are one loop. -/
theorem witness_LoopTimesOut :
    ∃ (s : State) (h : List Setback) (b : Setback) (rest : List Bit), Ready s ∧ AcksDistinct s.par ∧
      (∃ q, loopRequest (.dpRead 0x04#8) = some q ∧ aligned q.addr = true) ∧
      (∃ q, loopRequest (.dpWrite 0x04#8 1#32) = some q ∧ aligned q.addr = true) ∧
      (∃ q, loopRequest (.apWrite 0x0C#8 1#32) = some q ∧ aligned q.addr = true) ∧
      h.length + 1 = s.par.retryBound ∧ s.answers = setbackAnswers s.par (h ++ [b]) ++ rest :=
  ⟨answering (setbackAnswers tableP (nine ++ [.cleared]) ++ [true]), nine, .cleared, [true], ready_answering _, acks_distinct,
    ⟨_, rfl, by decide⟩, ⟨_, rfl, by decide⟩, ⟨_, rfl, by decide⟩, rfl, rfl⟩

theorem witness_ApReadTimesOutFirst :
    ∃ (s : State) (addr : Addr) (h : List Setback) (b : Setback) (rest : List Bit), Ready s ∧ AcksDistinct s.par ∧
      aligned addr = true ∧ h.length + 1 = s.par.retryBound ∧ s.answers = setbackAnswers s.par (h ++ [b]) ++ rest :=
  ⟨answering (setbackAnswers tableP (nine ++ [.wait]) ++ []), 0x00#8, nine, .wait, [], ready_answering _, acks_distinct, by decide,
    rfl, rfl⟩

theorem witness_ApReadTimesOutSecond :
    ∃ (s : State) (addr : Addr) (h g : List Setback) (b : Setback) (stale : Word32) (rest : List Bit), Ready s ∧ AcksDistinct s.par ∧
      aligned addr = true ∧ h.length < s.par.retryBound ∧ g.length + 1 = s.par.retryBound ∧
      s.answers = setbackAnswers s.par h ++ wireBits s.par.ackOk ++ wireBits stale ++ parity32 stale ::
        (setbackAnswers s.par (g ++ [b]) ++ rest) :=
  ⟨answering (setbackAnswers tableP nine ++ wireBits tableP.ackOk ++ wireBits 0#32 ++ parity32 0#32 ::
      (setbackAnswers tableP (nine ++ [.wait]) ++ [])), 0x00#8, nine, nine, .wait, 0#32, [], ready_answering _, acks_distinct,
    by decide, by decide, rfl, rfl⟩

/-- The same nine as failed attempts, and the longest first loop of `apRead` that succeeds. -/
def nineFailures : List Failure := nine.map .setback
theorem nine_retried (q : Request) : ∀ f ∈ nineFailures, f.retried tableP q := retried_setbacks acks_distinct q nine
theorem nine_posted : Posted tableP 0x04#8 nineFailures ∧ ¬nineFailures.length + 1 < tableP.retryBound :=
  ⟨⟨by decide, by decide, nine_retried _⟩, by decide⟩

/-- A loop of `dpRead` and of `apWrite`, and the first of `apRead`. -/
theorem loops :
    LoopsOn (.dpRead 0x04#8) { addr := 0x04#8, isAP := false, isRead := true, data := 0#32 } ∧
    LoopsOn (.apWrite 0x04#8 1#32) { addr := 0x04#8, isAP := true, isRead := false, data := 1#32 } ∧
    LoopsOn (.apRead 0x04#8) (apReadRequest 0x04#8) ∧ aligned 0x04#8 = true :=
  ⟨.inl rfl, .inl rfl, .inr ⟨_, rfl, rfl⟩, by decide⟩

/-- Both loops; the abort write answered `FAULT` after the last attempt the bound allows (vector RG6). -/
theorem witness_AbortFailureEndsLoop :
    ∃ (s u : State) (fs gs : List Failure) (a : BitVec 3) (stale : Word32) (rest : List Bit), (Ready s ∧ Ready u) ∧
      AcksDistinct tableP ∧ s.par = tableP ∧ u.par = tableP ∧ decodeAck tableP a ≠ .ok ∧ fs.length < tableP.retryBound ∧
      (∀ q, ∀ f ∈ fs, f.retried tableP q) ∧ Posted tableP 0x04#8 gs ∧
      s.answers = failureAnswers tableP fs ++ wireBits tableP.ackFault ++ wireBits a ++ rest ∧
      u.answers = postedAnswers tableP gs stale ++ (failureAnswers tableP fs ++ wireBits tableP.ackFault ++ wireBits a ++ rest) :=
  ⟨answering _, answering _, nineFailures, nineFailures, 0b100#3, 7#32, [], ⟨ready_answering _, ready_answering _⟩, acks_distinct, rfl,
    rfl, by decide, by decide, nine_retried, nine_posted.1, rfl, rfl⟩

theorem witness_InvalidAckEndsLoop :
    ∃ (s u : State) (fs gs : List Failure) (a : BitVec 3) (stale : Word32) (rest : List Bit), (Ready s ∧ Ready u) ∧
      s.par = tableP ∧ u.par = tableP ∧ tableP.nonretryPolicy = .failFast ∧ decodeAck tableP a = .protocolError ∧
      fs.length < tableP.retryBound ∧ (∀ q, ∀ f ∈ fs, f.retried tableP q) ∧ Posted tableP 0x04#8 gs ∧
      s.answers = failureAnswers tableP fs ++ wireBits a ++ rest ∧
      u.answers = postedAnswers tableP gs stale ++ (failureAnswers tableP fs ++ wireBits a ++ rest) :=
  ⟨answering _, answering _, nineFailures, nineFailures, 0b111#3, 7#32, [], ⟨ready_answering _, ready_answering _⟩, rfl, rfl, rfl,
    by decide, by decide, nine_retried, nine_posted.1, rfl, rfl⟩

theorem witness_ParityErrorEndsLoop :
    ∃ (s u : State) (fs gs : List Failure) (w stale : Word32) (rest : List Bit), (Ready s ∧ Ready u) ∧
      s.par = tableP ∧ u.par = tableP ∧ tableP.nonretryPolicy = .failFast ∧ fs.length < tableP.retryBound ∧
      (apReadRequest 0x04#8).isRead = true ∧ (∀ q, ∀ f ∈ fs, f.retried tableP q) ∧ Posted tableP 0x04#8 gs ∧
      s.answers = failureAnswers tableP fs ++ wireBits tableP.ackOk ++ wireBits w ++ (!parity32 w) :: rest ∧
      u.answers = postedAnswers tableP gs stale ++
        (failureAnswers tableP fs ++ wireBits tableP.ackOk ++ wireBits w ++ (!parity32 w) :: rest) :=
  ⟨answering _, answering _, nineFailures, nineFailures, 0x2BA01477#32, 7#32, [], ⟨ready_answering _, ready_answering _⟩, rfl, rfl, rfl,
    by decide, rfl, nine_retried, nine_posted.1, rfl, rfl⟩

/-- A record with the policy `retry` and four attempts, and a failed attempt of every kind. -/
def retryPar : Params := { tableP with nonretryPolicy := .retry, retryBound := 4 }
def mixed : List Failure := [.invalid 0b111#3, .setback .cleared, .corrupt 5#32]
theorem mixed_retried {q : Request} (hq : q.isRead = true) : ∀ f ∈ mixed, f.retried retryPar q := by
  rintro f (_ | ⟨_, _ | ⟨_, _ | ⟨_, ⟨⟩⟩⟩⟩)
  exacts [⟨rfl, by decide⟩, acks_distinct, ⟨rfl, hq⟩]
/-- The attempts that a write can make and repeat. -/
def mixedWrite : List Failure := [.invalid 0b000#3, .setback .wait, .setback .cleared]
theorem mixedWrite_retried (q : Request) : ∀ f ∈ mixedWrite, f.retried retryPar q := by
  rintro f (_ | ⟨_, _ | ⟨_, _ | ⟨_, ⟨⟩⟩⟩⟩)
  exacts [⟨rfl, by decide⟩, acks_distinct, acks_distinct]
theorem mixed_posted : Posted retryPar 0x04#8 mixed := ⟨by decide, by decide, mixed_retried rfl⟩

/-- A read, a write and both loops of `apRead`; the last attempt a bad word or no code. -/
theorem witness_RetryPolicyTimesOut :
    ∃ (s u v : State) (fs gs ws : List Failure) (l m : Failure) (stale : Word32) (rest : List Bit),
      (Ready s ∧ Ready u ∧ Ready v) ∧ s.par = retryPar ∧ u.par = retryPar ∧ v.par = retryPar ∧
      fs.length + 1 = retryPar.retryBound ∧ ws.length + 1 = retryPar.retryBound ∧ Posted retryPar 0x04#8 gs ∧
      (∀ q : Request, q.isRead = true → ∀ f ∈ fs ++ [l], f.retried retryPar q) ∧ (∀ q, ∀ f ∈ ws ++ [m], f.retried retryPar q) ∧
      s.answers = failureAnswers retryPar (fs ++ [l]) ++ rest ∧
      u.answers = postedAnswers retryPar gs stale ++ (failureAnswers retryPar (fs ++ [l]) ++ rest) ∧
      v.answers = failureAnswers retryPar (ws ++ [m]) ++ rest :=
  ⟨withPar retryPar (answering _), withPar retryPar (answering _), withPar retryPar (answering _), mixed, mixed, mixedWrite,
    .corrupt 9#32, .invalid 0b110#3, 7#32, [true], ⟨⟨rfl, rfl⟩, ⟨rfl, rfl⟩, ⟨rfl, rfl⟩⟩, rfl, rfl, rfl, rfl, rfl, mixed_posted,
    fun q hq f hf => (List.mem_append.1 hf).elim (mixed_retried hq f) (fun h => by cases List.mem_singleton.1 h; exact ⟨rfl, hq⟩),
    fun q f hf => (List.mem_append.1 hf).elim (mixedWrite_retried q f)
      (fun h => by cases List.mem_singleton.1 h; exact ⟨rfl, by decide⟩), rfl, rfl, rfl⟩

/-- The three clauses, the runs as long as the bound allows. -/
theorem witness_RetryPolicyRereads :
    ∃ (s u v : State) (fs gs ws : List Failure) (w stale : Word32) (rest : List Bit),
      (Ready s ∧ Ready u ∧ Ready v) ∧ s.par = retryPar ∧ u.par = retryPar ∧ v.par = retryPar ∧ aligned 0x04#8 = true ∧
      fs.length < retryPar.retryBound ∧ ¬fs.length + 1 < retryPar.retryBound ∧ ws.length < retryPar.retryBound ∧
      Posted retryPar 0x04#8 gs ∧
      (∀ q : Request, q.isRead = true → ∀ f ∈ fs, f.retried retryPar q) ∧ (∀ q, ∀ f ∈ ws, f.retried retryPar q) ∧
      s.answers = failureAnswers retryPar fs ++ wireBits retryPar.ackOk ++ wireBits w ++ parity32 w :: rest ∧
      u.answers = postedAnswers retryPar gs stale ++
        (failureAnswers retryPar fs ++ wireBits retryPar.ackOk ++ wireBits w ++ parity32 w :: rest) ∧
      v.answers = failureAnswers retryPar ws ++ wireBits retryPar.ackOk ++ rest :=
  ⟨withPar retryPar (answering _), withPar retryPar (answering _), withPar retryPar (answering _), mixed, mixed, mixedWrite, 9#32, 7#32,
    [true], ⟨⟨rfl, rfl⟩, ⟨rfl, rfl⟩, ⟨rfl, rfl⟩⟩, rfl, rfl, rfl, by decide, by decide, by decide, by decide, mixed_posted,
    fun _ => mixed_retried, mixedWrite_retried, rfl, rfl, rfl⟩

/-- The four acknowledgements, and the machine before `init`. -/
theorem witness_ClearErrors :
    (∀ a : BitVec 3, Ready (answering (wireBits a ++ [])) ∧ (answering (wireBits a ++ [])).answers = wireBits a ++ []) ∧
    decodeAck tableP 0b001#3 = .ok ∧ decodeAck tableP 0b010#3 = .wait ∧ decodeAck tableP 0b100#3 = .fault ∧
    decodeAck tableP 0b110#3 = .protocolError ∧ State.reset.link.initialized = false :=
  ⟨fun _ => ⟨ready_answering _, rfl⟩, by decide, by decide, by decide, by decide, rfl⟩

theorem witness_NotInitialised :
    State.reset.link.initialized = false ∧ isCommand (.transfer 0x01#8 false true 0#32) = true ∧
    Instr.transfer 0x01#8 false true 0#32 ≠ .init := by decide +kernel

/-- Every cause of `InvalidArgument`, the cause of `InvalidState`, and a success. -/
theorem witness_ErrorCauses :
    (∃ s t, exec .reserved17 s = .next t ∧ Instr.reserved17.codeAssigned = false) ∧
    (∃ s t, exec .init s = .next t ∧ configOk s.par s.op.config = false) ∧
    (∃ s t, exec (.dpWrite 0x06#8 1#32) s = .next t ∧ s.link.initialized = true ∧ (Instr.dpWrite 0x06#8 1#32).addrAligned = false) ∧
    (∃ s t, exec (.setResetPin false) s = .next t ∧ s.link.initialized = true ∧ s.cfg.pinRst = none) ∧
    (∃ s t, exec .clockPulse s = .next t ∧ s.link.initialized = false) ∧
    (∃ s t, exec .clockPulse s = .next t ∧ t.res.status = .ok) :=
  ⟨⟨ready, _, rfl, rfl⟩, ⟨{ ready with op := { ready.op with config := { exampleConfig with pinDio := 4 } } }, _, rfl, by decide⟩,
    ⟨ready, _, rfl, rfl, by decide⟩, ⟨ready, _, rfl, rfl, rfl⟩, ⟨State.reset, _, rfl, rfl⟩, ⟨ready, _, rfl, rfl⟩⟩

/-- A carried outcome, a success, and a misaligned address. -/
theorem witness_DirectionAfter :
    (∃ s t, Ready s ∧ exec (.transfer 0x00#8 false true 0#32) s = .next t ∧ t.res.info = some .protocolError) ∧
    (∃ s t, Ready s ∧ exec .clearErrors s = .next t ∧ t.res.info = none ∧ t.res.status = .ok) ∧
    (∃ s t q, Ready s ∧ loopRequest (.dpRead 0x01#8) = some q ∧ exec (.dpRead 0x01#8) s = .next t ∧
      t.res.status = .error .invalidArgument) :=
  ⟨⟨answering (script "HHH"), after (exec (.transfer 0x00#8 false true 0#32) (answering (script "HHH"))), ready_answering _, rfl,
      by decide +kernel⟩,
    ⟨answering (script "HLL"), after (exec .clearErrors (answering (script "HLL"))), ready_answering _, rfl, by decide +kernel⟩,
    ⟨ready, after (exec (.dpRead 0x01#8) ready), _, ready_ready, rfl, rfl, by decide +kernel⟩⟩

theorem witness_AttemptsBounded :
    (∃ s t q, exec (.dpRead 0x00#8) s = .next t ∧ loopRequest (.dpRead 0x00#8) = some q ∧ t.res.attempts = 3) ∧
    (∃ s t, exec (.apRead 0x00#8) s = .next t ∧ t.res.attempts = 1) ∧
    (∃ s t, exec .clearErrors s = .next t ∧ loopRequest .clearErrors = none ∧ ∀ a, Instr.clearErrors ≠ .apRead a) :=
  ⟨⟨answering (script "LHLLHLHLLHHHLHHHLLLHLHLLLLLLLLHLHHHLHLHLLL"),
      after (exec (.dpRead 0x00#8) (answering (script "LHLLHLHLLHHHLHHHLLLHLHLLLLLLLLHLHHHLHLHLLL"))), _, rfl, rfl, by decide +kernel⟩,
    ⟨answering (script "HHH"), after (exec (.apRead 0x00#8) (answering (script "HHH"))), rfl, by decide +kernel⟩,
    ⟨ready, _, rfl, rfl, fun _ h => by cases h⟩⟩

theorem witness_DefaultBounds : ready.par = tableP ∧ ready.link.driving = true := ⟨rfl, rfl⟩

theorem witness_ConfigurationWriters :
    (∃ s t, exec .init s = .next t ∧ configOk s.par s.op.config = true) ∧
    (∃ s t, exec (.setResetPin false) s = .next t ∧ t.rstTrace ≠ s.rstTrace) ∧ ∃ s t, exec .clockPulse s = .next t ∧ t.cfg = s.cfg :=
  ⟨⟨State.reset, _, rfl, by decide⟩, ⟨withPin, after (exec (.setResetPin false) withPin), rfl, by decide +kernel⟩, ⟨ready, _, rfl, rfl⟩⟩

theorem witness_LinkFlagWriters :
    (∃ s t, exec .init s = .next t ∧ t.link.connected ≠ s.link.connected) ∧
    ∃ s t, exec (.setConnected true) s = .next t ∧ t.link.connected ≠ s.link.connected :=
  ⟨⟨{ ready with link := { ready.link with connected := true } },
      after (exec .init { ready with link := { ready.link with connected := true } }), rfl, by decide +kernel⟩,
    ⟨ready, after (exec (.setConnected true) ready), rfl, by decide +kernel⟩⟩

theorem witness_ConnectedIsNotRead : ∃ s t, exec (.apRead 0x00#8) s = .next t := ⟨ready, _, rfl⟩

theorem witness_HalfDelayHasNoEffect : ∃ s t, step s = .next t ∧ t.trace = [.d1] :=
  ⟨{ ready with port := [pulseWord] }, after (step { ready with port := [pulseWord] }), rfl, by decide +kernel⟩

theorem witness_HeaderRows : Ready ready ∧ Ready released := ⟨ready_ready, ready_released⟩
theorem witness_AckRows : Ready ready ∧ Ready released := ⟨ready_ready, ready_released⟩
theorem witness_ConstantRows : Ready ready ∧ Ready released := ⟨ready_ready, ready_released⟩


end Sys2Proof.Tests
end

section
/-! SUPPORT. Who writes what in the state, for every instruction: every `exec` is an entry, a run that either refuses, initialises, or
is the body of a command, and a return (40_bitlink_primitives.md R109, 10_state.md R23 to R41). -/

namespace Sys2Proof.Machine

/-! ### What issuing an instruction leaves alone (10_state.md R30) -/

theorem issued_eq (i : Instr) (s : State) : s.issued i = { s with op := (s.issued i).op } := by cases i <;> rfl

@[simp] theorem issued_par (i : Instr) (s : State) : (s.issued i).par = s.par := by rw [issued_eq]
@[simp] theorem issued_cfg (i : Instr) (s : State) : (s.issued i).cfg = s.cfg := by rw [issued_eq]
@[simp] theorem issued_link (i : Instr) (s : State) : (s.issued i).link = s.link := by rw [issued_eq]
@[simp] theorem issued_trace (i : Instr) (s : State) : (s.issued i).trace = s.trace := by rw [issued_eq]
@[simp] theorem issued_rstTrace (i : Instr) (s : State) : (s.issued i).rstTrace = s.rstTrace := by rw [issued_eq]

/-- No instruction has the configuration port among its own operands (30_encoding.md R71). -/
@[simp] theorem issued_config (i : Instr) (s : State) : (s.issued i).op.config = s.op.config := by cases i <;> rfl

/-! ### What an instruction does between its entry and its return -/

/-- What instruction `i` makes of the state `u` after its entry, and the result it returns. -/
inductive Ran (i : Instr) (u : State) : CmdResult × State → Prop
  | refused (c : ErrorClass) (hc : c = .invalidArgument ∨ c = .invalidState)
      (hi : i = .init → configOk u.par u.op.config = false) : Ran i u (.err c none, u)
  | init (hi : i = .init) (hok : configOk u.par u.op.config = true) : Ran i u (.ok, initialise u)
  | body {x : CmdResult × State} (hi : i ≠ .init) (hn : u.link.initialized = true) (h : BodyRun i u x) : Ran i u x

/-- Every instruction is the entry, such a run, and the return. -/
theorem exec_ran {i : Instr} {s t : State} (h : exec i s = .next t) :
    ∃ x, Ran i (begin (s.issued i)) x ∧ t = finish x.1 x.2 := by
  by_cases hi : i = .init
  · subst hi
    rcases exec_init_cases s with ⟨hok, he⟩ | ⟨hok, he⟩ <;> obtain rfl := Host.Outcome.next.inj (he.symm.trans h)
    · exact ⟨_, .init rfl hok, rfl⟩
    · exact ⟨_, .refused _ (.inl rfl) (fun _ => hok), rfl⟩
  · rcases exec_result i s hi with ⟨_, he⟩ | ⟨_, _, he⟩ | ⟨_, _, _, he⟩ | ⟨_, hn, _, x, hx, he⟩ <;>
      obtain rfl := Host.Outcome.next.inj (he.symm.trans h)
    · exact ⟨_, .refused _ (.inl rfl) (fun e => absurd e hi), rfl⟩
    · exact ⟨_, .refused _ (.inr rfl) (fun e => absurd e hi), rfl⟩
    · exact ⟨_, .refused _ (.inl rfl) (fun e => absurd e hi), rfl⟩
    · exact ⟨x, .body hi (by simpa using hn) hx, rfl⟩

section ran

variable {i : Instr} {u : State} {x : CmdResult × State}

/-- The parameter record is fixed at build (R35). -/
theorem Ran.par (h : Ran i u x) : x.2.par = u.par := by
  cases h with
  | refused | init => rfl
  | body hi hn h =>
    cases h with
    | wire r t hr w => exact w.control.par
    | reset | connected => rfl

/-- `init` writes the configuration whole, and only a good one (R23, R101). -/
theorem Ran.cfg_init (h : Ran .init u x) : x.2.cfg = if configOk u.par u.op.config = true then u.op.config else u.cfg := by
  cases h with
  | refused c hc hi => rw [if_neg (by simp [hi rfl])]
  | init _ hok => rw [if_pos hok]; rfl
  | body hi => exact absurd rfl hi

/-- The wire trace is append-only (R40). -/
theorem Ran.trace (h : Ran i u x) : u.trace <+: x.2.trace := by
  cases h with
  | refused | init => exact List.prefix_rfl
  | body hi hn h =>
    cases h with
    | wire r t hr w =>
      obtain ⟨cs, hcs, _⟩ := w.appends
      exact ⟨cs, hcs.symm⟩
    | reset | connected => exact List.prefix_rfl

/-- The list of reset levels is append-only, and only `init` and `setResetPin` append to it (R40). -/
theorem Ran.rstTrace (h : Ran i u x) :
    u.rstTrace <+: x.2.rstTrace ∧ (x.2.rstTrace ≠ u.rstTrace → i = .init ∨ ∃ b, i = .setResetPin b) := by
  cases h with
  | refused => exact ⟨List.prefix_rfl, fun h => absurd rfl h⟩
  | init hi =>
    refine ⟨?_, fun _ => .inl hi⟩
    rw [initialise_rstTrace]
    split
    · exact List.prefix_append _ _
    · exact List.prefix_rfl
  | body hi hn h =>
    cases h with
    | wire r t hr w =>
      have e := w.control.rstTrace
      exact ⟨by rw [e], fun h => absurd e h⟩
    | reset b hb => exact ⟨List.prefix_append _ _, fun _ => .inr ⟨b, hb⟩⟩
    | connected => exact ⟨List.prefix_rfl, fun h => absurd rfl h⟩

/-- A successful `init` sets `initialized`, and nothing clears it (R25). -/
theorem Ran.initialized (h : Ran i u x) :
    x.2.link.initialized = (u.link.initialized || (i == .init && configOk u.par u.op.config)) := by
  cases h with
  | refused c hc hi =>
    by_cases he : i = .init
    · simp [hi he]
    · simp [he]
  | init hi hok => simp [hi, hok]
  | body hi hn h =>
    cases h with
    | wire r t hr w => simp [w.control.initialized, hn]
    | reset | connected => simp [hn]

/-- `init` clears `connected`, and `setConnected` writes it (R26). -/
theorem Ran.connected (h : Ran i u x) (hne : x.2.link.connected ≠ u.link.connected) :
    (i = .init ∧ x.2.link.connected = false) ∨ ∃ b, i = .setConnected b ∧ x.2.link.connected = b := by
  cases h with
  | refused => exact absurd rfl hne
  | init hi => exact .inl ⟨hi, rfl⟩
  | body hi hn h =>
    cases h with
    | wire r t hr w => exact absurd w.control.connected hne
    | reset => exact absurd rfl hne
    | connected b hb => exact .inr ⟨b, hb, rfl⟩

end ran

/-! ### Who writes the parameters, the configuration, the traces and the flags -/

/-- Settles O54, from what a run between entry and return can write. -/
theorem configurationWriters : Obligations.ConfigurationWriters := by
  intro s t i h
  obtain ⟨x, hx, rfl⟩ := exec_ran h
  obtain ⟨hgrow, hwho⟩ := hx.rstTrace
  have hpar := hx.par
  have htrace := hx.trace
  simp only [begin_par, begin_trace, begin_rstTrace, issued_par, issued_trace, issued_rstTrace] at hpar htrace hgrow hwho
  refine ⟨hpar, fun hi => (exec_op_cfg i s _ hi h).2, ?_, htrace, hgrow, hwho⟩
  rintro rfl
  exact hx.cfg_init

/-- Settles O55, from what a run between entry and return can write. -/
theorem linkFlagWriters : Obligations.LinkFlagWriters := by
  intro s t i h
  obtain ⟨x, hx, rfl⟩ := exec_ran h
  refine ⟨?_, fun hne => hx.connected (by simpa using hne)⟩
  simpa using hx.initialized

/-- `init` reads no `connected` flag: it clears it, or leaves it as it is (R26, R100). -/
theorem exec_init_connected (s t : State) (b : Bool) (h : exec .init s = .next t) :
    ∃ c, exec .init { s with link := { s.link with connected := b } } = .next { t with link := { t.link with connected := c } } := by
  have hs' := exec_init_cases { s with link := { s.link with connected := b } }
  rcases exec_init_cases s with ⟨hok, he⟩ | ⟨hok, he⟩ <;> obtain rfl := Host.Outcome.next.inj (he.symm.trans h)
  · exact ⟨false, (hs'.resolve_right (fun hbad => by simp [hok] at hbad)).2⟩
  · exact ⟨b, (hs'.resolve_left (fun hgood => by simp [hok] at hgood)).2⟩

/-- Settles O56: every instruction but `init` commutes with replacing `connected`, by `exec_masked` with the configuration and the
operand registers kept as they are. -/
theorem connectedIsNotRead : Obligations.ConnectedIsNotRead := by
  intro s t i b h
  by_cases hi : i = .init
  · subst hi
    exact exec_init_connected s t b h
  · obtain ⟨c, -, hc⟩ := exec_masked i hi s.cfg b s.op.config s t rfl h
    obtain ⟨hop, hcfg⟩ := exec_op_cfg i s t hi h
    have ht : t.mask s.cfg c { (s.issued i).op with config := s.op.config } = { t with link := { t.link with connected := c } } := by
      rw [← hcfg, ← issued_config i s, ← hop]
      rfl
    exact ⟨c, hc.trans (congrArg _ ht)⟩

/-! ### The invariant -/

/-- The part of `Inv` that does not speak of the command port or the response port: what an entry keeps and every body restores. -/
structure InvLine (s : State) : Prop where
  legal : paramsLegal s.par = true
  flagIsDriver : s.link.driving = s.dioOE
  clock : s.clk = if s.link.initialized then .driven true else .notDriven
  resetAbsent : s.link.initialized = true → s.cfg.pinRst = none → s.rst = .absent
  resetDriven : s.link.initialized = true → s.cfg.pinRst ≠ none → ∃ b, s.rst = .driven b
  resetTrace : ∀ b, s.rst = .driven b → s.rstTrace.getLast? = some b
  configGood : s.link.initialized = true → configOk s.par s.cfg = true
  untouched : s.link.initialized = false →
    s.link.connected = false ∧ s.dioOE = false ∧ s.rst = .notDriven ∧ s.sampled = none ∧ s.trace = [] ∧ s.rstTrace = []

/-- The invariant says nothing of the operand registers or the port, and its part for the line nothing of `busy` or the response port. -/
theorem Inv.entered {s : State} (h : Inv s) (w : PortWord) (rest : List PortWord) (i : Instr) :
    InvLine (begin ((s.accept w rest).issued i)) := by
  obtain ⟨legal, _, _, flag, clock, absent, driven, levels, good, untouched, _, _⟩ := h
  rw [issued_eq]
  exact ⟨legal, flag, clock, absent, driven, levels, good, untouched⟩

/-- The result classes that SWDLC raises (60_exceptions.md Table RC). -/
def raisedStatuses : List Status :=
  [Status.ok, .error .invalidArgument, .error .invalidState, .error .protocolTimeout, .error .protocolFault]

/-- The return restores the rest of the invariant (R109, R33). -/
theorem InvLine.finish {u : State} (h : InvLine u) {r : CmdResult} (ha : u.res.attempts ≤ 2 * u.par.retryBound)
    (hr : r.status ∈ raisedStatuses) : Inv (finish r u) := by
  obtain ⟨legal, flag, clock, absent, driven, levels, good, untouched⟩ := h
  exact ⟨legal, rfl, rfl, flag, clock, absent, driven, levels, good, untouched, ha, hr⟩

/-- A successful `init` establishes it whatever the line was (R100, Table RV). -/
theorem InvLine.initialise {u : State} (hl : paramsLegal u.par = true) (hok : configOk u.par u.op.config = true) :
    InvLine (initialise u) where
  legal := hl
  flagIsDriver := rfl
  clock := rfl
  resetAbsent _ hp := by
    rw [initialise_cfg] at hp
    simp [hp]
  resetDriven _ hp := by
    rw [initialise_cfg] at hp
    exact ⟨true, by simp [Option.isSome_iff_ne_none.mpr hp]⟩
  resetTrace b hb := by
    rw [initialise_rst] at hb
    rw [initialise_rstTrace]
    split at hb
    · next hp => cases hb; simp [hp]
    · cases hb
  configGood _ := hok
  untouched hn := by cases hn

/-- Wire activity of an initialised controller keeps it. -/
theorem InvLine.wire {u t : State} {n k : Nat} (h : InvLine u) (hn : u.link.initialized = true) (w : WireStep n k u t) :
    InvLine t := by
  obtain ⟨par, cfg, initialized, _, rst, rstTrace, _, _⟩ := w.control
  have ht : t.link.initialized = true := initialized.trans hn
  refine ⟨?_, w.flag h.flagIsDriver, ?_, ?_, ?_, ?_, ?_, fun e => by simp [ht] at e⟩
  · rw [par]; exact h.legal
  · rw [if_pos ht]; exact w.clock (by rw [h.clock, if_pos hn])
  · rw [cfg, rst]; exact fun _ => h.resetAbsent hn
  · rw [cfg, rst]; exact fun _ => h.resetDriven hn
  · rw [rst, rstTrace]; exact h.resetTrace
  · rw [par, cfg]; exact fun _ => h.configGood hn

/-- Driving a configured NRESET keeps it: the level on the pin is the last one recorded (R107, R40). -/
theorem InvLine.driveReset {u : State} (h : InvLine u) (hn : u.link.initialized = true) (hp : u.cfg.pinRst ≠ none) (b : Bit) :
    InvLine (driveReset b u) where
  legal := h.legal
  flagIsDriver := h.flagIsDriver
  clock := h.clock
  resetAbsent _ hp' := absurd hp' hp
  resetDriven _ _ := ⟨b, rfl⟩
  resetTrace c hc := by cases hc; simp
  configGood := h.configGood
  untouched hn' := absurd (hn.symm.trans hn') Bool.noConfusion

/-- Writing `connected` after `init` keeps it (R108). -/
theorem InvLine.setConnectedFlag {u : State} (h : InvLine u) (hn : u.link.initialized = true) (b : Bit) :
    InvLine (setConnectedFlag b u) where
  legal := h.legal
  flagIsDriver := h.flagIsDriver
  clock := h.clock
  resetAbsent := h.resetAbsent
  resetDriven := h.resetDriven
  resetTrace := h.resetTrace
  configGood := h.configGood
  untouched hn' := absurd (hn.symm.trans hn') Bool.noConfusion

/-- Every instruction keeps the part of the invariant about the line. -/
theorem Ran.invLine {i : Instr} {u : State} {x : CmdResult × State} (h : Ran i u x) (hu : InvLine u) : InvLine x.2 := by
  cases h with
  | refused => exact hu
  | init _ hok => exact .initialise hu.legal hok
  | body _ hn h =>
    cases h with
    | wire r t hr w => exact hu.wire hn w
    | reset b _ hp => exact hu.driveReset hn hp b
    | connected b => exact hu.setConnectedFlag hn b

/-- A retry loop makes at most `RETRY_BOUND` attempts, and `apRead` is two of them (R174, R177). -/
theorem maxAttempts_le (i : Instr) (s : State) : maxAttempts s i ≤ 2 * s.par.retryBound := by
  cases i <;> simp only [maxAttempts] <;> omega

/-- A run counts at most two loops' attempts (R174). -/
theorem Ran.attempts {i : Instr} {u : State} {x : CmdResult × State} (h : Ran i u x) :
    x.2.res.attempts ≤ u.res.attempts + 2 * u.par.retryBound := by
  cases h with
  | refused | init => exact Nat.le_add_right _ _
  | body _ hn h =>
    cases h with
    | wire r t hr w => exact w.attempts.trans (Nat.add_le_add_left (maxAttempts_le i u) _)
    | reset | connected => exact Nat.le_add_right _ _

/-- An entry refuses with one of two classes and a body fails with one of two others (Table EC). -/
theorem Ran.status {i : Instr} {u : State} {x : CmdResult × State} (h : Ran i u x) :
    x.1.status ∈ raisedStatuses := by
  cases h with
  | refused c hc => rcases hc with rfl | rfl <;> simp [CmdResult.status, raisedStatuses]
  | init => simp [CmdResult.status, raisedStatuses]
  | body _ hn h =>
    cases h with
    | wire r t hr w =>
      cases r with
      | ok | okBit | okWord | okOutcome => simp [CmdResult.status, raisedStatuses]
      | err c info => rcases hr with rfl | rfl <;> simp [CmdResult.status, raisedStatuses]
    | reset | connected => simp [CmdResult.status, raisedStatuses]

/-- A step that answers a next state is idle, or runs one instruction on the accepted word (30_encoding.md R71). -/
theorem step_next_cases {s t : State} (h : step s = .next t) :
    t = s ∨ ∃ w rest i, exec i (s.accept w rest) = .next t := by
  unfold step at h
  split at h
  · split at h
    · cases h
    · split at h
      · exact .inl (Host.Outcome.next.inj h).symm
      · next w rest _ =>
        split at h
        · next i _ => exact .inr ⟨w, rest, i, h⟩
        · cases h
  · cases h

/-- Settles O3: the entry keeps `InvLine`, every run between entry and return keeps it, and the return restores `Inv`. -/
theorem stepKeepsInvariant : Obligations.StepKeepsInvariant := by
  intro s t hs h
  rcases step_next_cases h with rfl | ⟨w, rest, i, he⟩
  · exact hs
  · obtain ⟨x, hx, rfl⟩ := exec_ran he
    have ha : x.2.res.attempts ≤ 2 * x.2.par.retryBound := by
      rw [hx.par]
      exact hx.attempts.trans (by simp)
    exact (hx.invLine (hs.entered w rest i)).finish ha hx.status

/-! ### Reset -/

/-- Settles O1: the values of `State.reset`. -/
theorem resetState : Obligations.ResetState := ⟨rfl, rfl, rfl, rfl, rfl, rfl, rfl, rfl, rfl⟩

/-- Settles O2: before the first `init` no pin is driven, so the clauses about an initialised controller do not arise. -/
theorem resetInvariant : Obligations.ResetInvariant where
  legal := by decide
  notBusy := rfl
  seqIdle := rfl
  flagIsDriver := rfl
  clock := rfl
  resetAbsent h := by cases h
  resetDriven h := by cases h
  resetTrace _ h := by cases h
  configGood h := by cases h
  untouched _ := ⟨rfl, rfl, rfl, rfl, rfl, rfl⟩
  attempts := Nat.zero_le _
  classes := List.mem_cons_self

end Sys2Proof.Machine
end

section
/-! SUPPORT. Register addresses (20_memory.md R55): a misaligned one is refused before any cycle, and a frame reads bits 3 and 2 only. -/

namespace Sys2Proof.Machine

/-- `addr[1:0] = 0` as one field, the way R55 writes it. -/
theorem aligned_iff (a : Addr) : aligned a = true ↔ a.extractLsb' 0 2 = 0#2 := by
  rw [BitVec.eq_of_getLsbD_eq_iff]
  simp [aligned, Nat.le_one_iff_eq_zero_or_eq_one, or_imp, forall_and]

/-- The field `addr[3:2]` is the bits A2 and A3. -/
theorem addrSelect_eq_iff (a b : Addr) :
    a.extractLsb' 2 2 = b.extractLsb' 2 2 ↔ a.getLsbD 2 = b.getLsbD 2 ∧ a.getLsbD 3 = b.getLsbD 3 := by
  rw [BitVec.eq_of_getLsbD_eq_iff]
  simp [Nat.lt_succ_iff, Nat.le_one_iff_eq_zero_or_eq_one, or_imp, forall_and]

/-- A failed argument check ends an initialised command with no cycle (R109, Table EC). -/
theorem exec_badArgument (i : Instr) (s : State) (hi : i ≠ .init) (hn : s.link.initialized = true) (ha : argumentsOk s i = false) :
    exec i s = .next ((s.issued i).reply (.err .invalidArgument none) none false 0) := by
  rcases exec_result i s hi with ⟨_, he⟩ | ⟨_, hn', _⟩ | ⟨_, _, _, he⟩ | ⟨_, _, ha', _⟩
  · exact he
  · simp [hn] at hn'
  · exact he
  · simp [ha] at ha'

/-- The address enters the header as A2 and A3 alone (30_encoding.md R74). -/
theorem header_congr (par : Params) (p r : Bit) {a b : Addr} (h : a.extractLsb' 2 2 = b.extractLsb' 2 2) :
    header par p r a = header par p r b := by
  obtain ⟨h2, h3⟩ := (addrSelect_eq_iff a b).mp h
  rw [header, header, h2, h3]

/-- A frame reads the address of its request only to make the header (42_transaction.md R140). -/
theorem frame_congr_addr {q : Request} {a : Addr} (s : State) (h : a.extractLsb' 2 2 = q.addr.extractLsb' 2 2) :
    frame { q with addr := a } s = frame q s := by
  have hphases (k : Ack) (t : State) : framePhases { q with addr := a } k t = framePhases q k t := by cases k <;> rfl
  simp only [frame, header_congr s.par q.isAP q.isRead h, hphases]

/-- Settles O34: alignment is the argument check of the five commands, and the header is all that a frame takes from the address. -/
theorem registerAddress : Obligations.RegisterAddress := by
  refine ⟨fun s addr hn hmis => ?_, fun q addr s h => frame_congr_addr s h⟩
  have hal : aligned addr = false := by rwa [← Bool.not_eq_true, aligned_iff]
  exact ⟨fun isAP isRead data => exec_badArgument (.transfer addr isAP isRead data) s Instr.noConfusion hn hal,
    exec_badArgument (.dpRead addr) s Instr.noConfusion hn hal,
    fun data => exec_badArgument (.dpWrite addr data) s Instr.noConfusion hn hal,
    exec_badArgument (.apRead addr) s Instr.noConfusion hn hal,
    fun data => exec_badArgument (.apWrite addr data) s Instr.noConfusion hn hal⟩

end Sys2Proof.Machine
end

section
/-! SUPPORT. The encodings (30_encoding.md): the decoder undoes the encoder and reads of a command word only the fields its row names, the
reserved codes, the request header, the acknowledgement, the wire constants, and which instruction a step runs. -/

namespace Sys2Proof

/-! ### Command words -/

/-- Settles O9: the code read back from the word selects the row, and each operand is the field read back (R71). -/
theorem commandWordFields : Obligations.CommandWordFields := by
  intro isAP isRead b addr data
  simp [decode_commandBytes, decodeCommand, cwCode_commandWord, cwIsAP_commandWord, cwIsRead_commandWord, cwB_commandWord,
    cwAddr_commandWord, cwData_commandWord]

/-- Settles O8: a command or a reserved code comes back from the fields of its word, a wire format from its bytes, which are constant. -/
theorem decodeEncode : Obligations.DecodeEncode := by
  intro i
  cases i with
  | init | clockPulse | driveLine | releaseLine | readLine | setResetPin | setConnected | lineReset | switchSequence | dormantWake
  | dormantEnter | transfer | dpRead | dpWrite | apRead | apWrite | clearErrors
  | reserved17 | reserved18 | reserved19 | reserved20 | reserved21 | reserved22 | reserved23 | reserved24 | reserved25 | reserved26
  | reserved27 | reserved28 | reserved29 | reserved30 | reserved31 =>
    simp [encode, plainCommand, decode_commandBytes, decodeCommand, cwCode_commandWord, cwIsAP_commandWord, cwIsRead_commandWord,
      cwB_commandWord, cwAddr_commandWord, cwData_commandWord]
  | _ => rfl

/-- The codes 17 to 31 select the reserved instructions (R72). -/
theorem decodeCommand_codeAssigned (w : BitVec 48) (h : 17 ≤ (cwCode w).toNat) : (decodeCommand w).codeAssigned = false := by
  have hlt : (cwCode w).toNat < 32 := (cwCode w).isLt
  unfold decodeCommand
  generalize (cwCode w).toNat = code at h hlt
  interval_cases code <;> rfl

namespace Machine

/-- An instruction whose code is reserved answers `InvalidArgument` before any other check (R72, 60_exceptions.md R200). -/
theorem exec_of_not_codeAssigned {i : Instr} (h : i.codeAssigned = false) (s : State) :
    exec i s = .next (s.reply (.err .invalidArgument none) none false 0) := by
  cases i with
  | reserved17 | reserved18 | reserved19 | reserved20 | reserved21 | reserved22 | reserved23 | reserved24 | reserved25 | reserved26
  | reserved27 | reserved28 | reserved29 | reserved30 | reserved31 => rfl
  | _ => exact Bool.noConfusion h

/-- Settles O11: the fifteen constructors are the instructions with a reserved code. -/
theorem reservedConstructors : Obligations.ReservedConstructors := by
  intro s i hi
  exact exec_of_not_codeAssigned (by fin_cases hi <;> rfl) s

/-- Settles O10: the word decodes by its code to an instruction with a reserved code. -/
theorem reservedCodes : Obligations.ReservedCodes := fun w s h =>
  have hr := decodeCommand_codeAssigned w h
  ⟨decodeCommand w, decode_word w, by rw [Instr.wellFormed, hr, Bool.false_and], exec_of_not_codeAssigned hr s⟩

/-! ### The request header and the acknowledgement -/

/-- Of two fields side by side the lower one is sent first (00_scope.md R10). -/
theorem wireBits_append {m n : Nat} (hi : BitVec m) (lo : BitVec n) : wireBits (hi ++ lo) = wireBits lo ++ wireBits hi := by
  refine List.ext_getElem? fun i => ?_
  by_cases hn : i < n
  · rw [wireBits_getElem? _ i (by omega), List.getElem?_append_left (by simpa using hn), wireBits_getElem? lo i hn,
      BitVec.getLsbD_append, if_pos hn]
  · rw [List.getElem?_append_right (by simpa using hn), wireBits_length]
    by_cases hm : i < m + n
    · rw [wireBits_getElem? _ i hm, wireBits_getElem? hi (i - n) (by omega), BitVec.getLsbD_append, if_neg hn]
    · rw [List.getElem?_eq_none (by simp; omega), List.getElem?_eq_none (by simp; omega)]

/-- Settles O12: the header is eight one-bit fields side by side (R74). -/
theorem headerBits : Obligations.HeaderBits := by
  intro par isAP isRead addr
  rw [header]
  iterate 7 rw [wireBits_append]
  simp [parity4]

/-- Settles O13: the headers of Table RQ, computed. -/
theorem headerTable : Obligations.HeaderTable := by
  unfold Obligations.HeaderTable
  decide

theorem decodeAck_eq_ok_iff (par : Params) (a : BitVec 3) : decodeAck par a = .ok ↔ a = par.ackOk := by
  unfold decodeAck
  split_ifs <;> simp_all

theorem decodeAck_eq_wait_iff {par : Params} (h : AcksDistinct par) (a : BitVec 3) : decodeAck par a = .wait ↔ a = par.ackWait := by
  refine ⟨fun e => ?_, fun e => e ▸ decodeAck_wait h⟩
  unfold decodeAck at e
  split_ifs at e with h1 h2 h3
  exact h2

theorem decodeAck_eq_fault_iff {par : Params} (h : AcksDistinct par) (a : BitVec 3) : decodeAck par a = .fault ↔ a = par.ackFault := by
  refine ⟨fun e => ?_, fun e => e ▸ decodeAck_fault h⟩
  unfold decodeAck at e
  split_ifs at e with h1 h2 h3
  exact h3

/-- The rest of Table AK is `PROTOCOL_ERROR`, whether or not the codes are distinct. -/
theorem decodeAck_eq_protocolError_iff (par : Params) (a : BitVec 3) :
    decodeAck par a = .protocolError ↔ a ≠ par.ackOk ∧ a ≠ par.ackWait ∧ a ≠ par.ackFault := by
  unfold decodeAck
  split_ifs <;> simp_all

/-- Settles O14: three samples are the three bits, and a value decodes by the first code it equals (R80). -/
theorem ackDecoding : Obligations.AckDecoding :=
  ⟨by decide,
    fun par a h => ⟨decodeAck_eq_ok_iff par a, decodeAck_eq_wait_iff h a, decodeAck_eq_fault_iff h a,
      decodeAck_eq_protocolError_iff par a⟩,
    by decide⟩

/-! ### The wire constants -/

/-- A constant presented alone (R85): the turnaround if one is owed, then its bits; the line rests at the top one. -/
theorem emitConstant_eq {w : Nat} (v : BitVec w) (hw : 0 < w) {top : Bit} (htop : v.getLsbD (w - 1) = top) (s : State)
    (h : Ready s) :
    emitConstant v s = (s.wires (lead s ++ drivenCycles (wireBits v)) top true).reply .ok none false 0 := by
  obtain ⟨q, hq⟩ := writeBits_ensureDriving v hw (begin s) h.flagIsDriver
  rw [emitConstant, runCommand_runs _ s h.initialized, hq, finish_withSeq, htop]
  rfl

/-- Settles O60: each row presents one constant, whose top bit is the level left on the line. -/
theorem constantRows : Obligations.ConstantRows := fun s h =>
  ⟨congrArg Host.Outcome.next (emitConstant_eq 0xE79E#16 (by decide) (by decide) s h),
    congrArg Host.Outcome.next (emitConstant_eq 0x19BC0EA2E3DDAFE986852D956209F392#128 (by decide) (by decide) s h),
    congrArg Host.Outcome.next (emitConstant_eq 0x1A#8 (by decide) (by decide) s h),
    congrArg Host.Outcome.next (emitConstant_eq 0xE3BC#16 (by decide) (by decide) s h)⟩

/-! ### The step and the words it runs -/

/-- Settles O4: of the branches of `step`, the one that runs the word. -/
theorem stepRunsDecoded : Obligations.StepRunsDecoded := by
  intro s w rest i hpar hbusy hport hdec
  simp [step, hpar, hbusy, hport, hdec, State.accept]

/-- A table word is the instruction its bytes decode to. -/
theorem decode_of_decodeTableWord {nbits w : Nat} {i : Instr} (h : decodeTableWord nbits w = some i) :
    decode (tableBytes nbits w) = .instr i := by
  unfold decodeTableWord at h
  split at h
  · next j hj => rw [hj, Option.some.inj h]
  · cases h

/-- Settles O5: the placed word is the head of the port, and no configuration is driven with it. -/
theorem fetchedWordRuns : Obligations.FetchedWordRuns := fun s nbits w i hpar hbusy hdec =>
  stepRunsDecoded (s.withFetchWord nbits w) (portWordOf nbits w) s.port i hpar hbusy rfl (decode_of_decodeTableWord hdec)

/-- Settles O7: the words of Tables CS, CW, RQ and AK and rules R86 and R87, decoded. -/
theorem knownWords : Obligations.KnownWords := by
  unfold Obligations.KnownWords
  decide +kernel

end Machine

end Sys2Proof
end

section
/-! SUPPORT. The bit-link primitives (40_bitlink_primitives.md): each is one operation on the line, a pin or a flag between the entry and
the return of a command, and the response port is the rest of what it writes. -/

namespace Sys2Proof.Machine

/-! ### When a configuration is accepted (R101) -/

@[simp] theorem pinOk_iff (par : Params) (pin : Nat) : pinOk par pin = true ↔ pin ∈ par.pinsOk := List.contains_iff_mem

theorem rstPinOk_iff (par : Params) (c : LinkConfig) :
    rstPinOk par c = true ↔ ∀ p, c.pinRst = some p → p ∈ par.pinsOk ∧ p ≠ c.pinClk ∧ p ≠ c.pinDio := by
  unfold rstPinOk
  cases c.pinRst with
  | none => simp
  | some p => simp [and_assoc]

/-- Settles O16: the conjuncts of `configOk`, the reset pin's by `rstPinOk_iff`. -/
theorem configAccepted : Obligations.ConfigAccepted := by
  intro par c
  simp [configOk, rstPinOk_iff, and_assoc]

/-! ### Entry and return around a body that decodes nothing (R109, R33) -/

/-- The return writes what the entry wrote again, and a result that carries no outcome leaves `res.ack` at `NONE`. -/
theorem finish_begin {r : CmdResult} (hr : r.info = none) (s : State) : finish r (begin s) = s.reply r none false 0 := by
  rw [finish_eq_reply, finalAck, finalParityError, hr]
  rfl

/-- A command whose body does not touch what the entry has written. -/
theorem runCommand_replies {body : State → CmdResult × State} {r : CmdResult} {s t : State} (hn : s.link.initialized = true)
    (hr : r.info = none) (hb : body (begin s) = (r, begin t)) : runCommand true body s = t.reply r none false 0 := by
  rw [runCommand_runs body s hn, hb, finish_begin hr]

/-- The state check comes before the argument check and the body (R109, 60_exceptions.md R200). -/
theorem exec_notInitialised (i : Instr) (s : State) (hi : i ≠ .init) (hc : i.codeAssigned = true) (hn : s.link.initialized = false) :
    exec i s = .next ((s.issued i).reply (.err .invalidState none) none false 0) := by
  rcases exec_result i s hi with ⟨hc', _⟩ | ⟨_, _, he⟩ | ⟨_, hn', _⟩ | ⟨_, hn', _⟩
  · simp [hc] at hc'
  · exact he
  · simp [hn] at hn'
  · simp [hn] at hn'

/-! ### init (R100) -/

/-- Settles O17: the two branches of `init`, and a reset pin is configured or is not. -/
theorem init : Obligations.Init := by
  refine fun s => ⟨fun hok => ?_, fun hbad => ?_⟩
  · have he : exec .init s = .next (finish .ok (begin (initialise s))) :=
      ((exec_init_cases s).resolve_right fun h => by simp [hok] at h).2
    rw [he, finish_begin rfl, initialise]
    cases s.op.config.pinRst <;> rfl
  · exact ((exec_init_cases s).resolve_left fun h => by simp [hbad] at h).2

/-! ### The clock and the line (R103 to R106) -/

/-- Settles O18: the body is `pulse`, whose record is one of five by the driver, the latch and the sample. -/
theorem clockPulse : Obligations.ClockPulse := by
  refine fun s => ⟨fun hn => ?_, exec_notInitialised .clockPulse s Instr.noConfusion rfl⟩
  have he : exec .clockPulse s = .next ((pulse s).reply .ok none false 0) :=
    congrArg Host.Outcome.next (runCommand_replies hn rfl rfl)
  rw [he, show pulse s = { s with clk := .driven true, sampled := none, trace := s.trace ++ [s.cycleRecord] } from rfl,
    State.cycleRecord]
  cases s.dioOE with
  | true => cases s.dioOut <;> rfl
  | false => rcases s.sampled with _ | _ | _ <;> rfl

/-- Settles O19: the body is `drive` at the level just latched. -/
theorem driveLine : Obligations.DriveLine := fun s b =>
  ⟨fun hn => congrArg Host.Outcome.next (runCommand_replies (t := drive b (s.latchBit b)) hn rfl rfl),
    exec_notInitialised (.driveLine b) s Instr.noConfusion rfl⟩

/-- Settles O20: the body is `release`. -/
theorem releaseLine : Obligations.ReleaseLine := fun s =>
  ⟨fun hn => congrArg Host.Outcome.next (runCommand_replies (t := release s) hn rfl rfl),
    exec_notInitialised .releaseLine s Instr.noConfusion rfl⟩

/-- While SWDLC drives, a sample is a free bit and is not remembered (R106, U1). -/
theorem sample_driving (s : State) (h : s.dioOE = true) :
    sample s = (Config.drawBit s.free, { s with free := s.free + 1 }) := by
  rw [sample, if_pos h, draw]

/-- On the released line a sample is the next answer of the script, and is remembered (R106). -/
theorem sample_answered {s : State} (h : s.dioOE = false) {b : Bit} {rest : List Bit} (ha : s.answers = b :: rest) :
    sample s = (b, { s with sampled := some b, answers := rest }) := by
  simp [sample, oracleBit, h, ha]

/-- Past the end of the script it is the oracle's bit (R6, R106). -/
theorem sample_unscripted {s : State} (h : s.dioOE = false) (ha : s.answers = []) :
    sample s = (Config.oracle s.trace s.free,
      { s with sampled := some (Config.oracle s.trace s.free), free := s.free + 1 }) := by
  simp [sample, oracleBit, h, ha]

/-- `readLine` answers what `sample` does. -/
theorem exec_readLine {s t : State} {b : Bit} (hn : s.link.initialized = true) (h : sample (begin s) = (b, begin t)) :
    exec .readLine s = .next (t.reply (.okBit b) none false 0) :=
  congrArg Host.Outcome.next (runCommand_replies hn rfl (by rw [h]))

/-- Settles O21: the three cases of `sample`, and the state check. -/
theorem readLine : Obligations.ReadLine := fun s =>
  ⟨fun hn hoe _ _ ha => exec_readLine hn (sample_answered (s := begin s) hoe ha),
    fun hn hoe ha => ⟨_, exec_readLine hn (sample_unscripted (s := begin s) hoe ha)⟩,
    fun hn hoe => ⟨_, exec_readLine hn (sample_driving (begin s) hoe)⟩,
    exec_notInitialised .readLine s Instr.noConfusion rfl⟩

/-! ### NRESET and the connected flag (R107, R108) -/

/-- Settles O22: the argument check is that a reset pin is configured, and the body is `driveReset`. -/
theorem setResetPin : Obligations.SetResetPin := by
  refine fun s b => ⟨fun hn hp => ?_, fun hn hp => ?_, exec_notInitialised (.setResetPin b) s Instr.noConfusion rfl⟩
  · rw [exec, execSetResetPin, Option.isSome_iff_ne_none.mpr hp]
    exact congrArg Host.Outcome.next (runCommand_replies (t := driveReset b (s.latchLevel b)) hn rfl rfl)
  · exact exec_badArgument (.setResetPin b) s Instr.noConfusion hn (by rw [argumentsOk, hp]; rfl)

/-- Settles O23: the body writes the flag just latched. -/
theorem setConnected : Obligations.SetConnected := fun s b =>
  ⟨fun hn => congrArg Host.Outcome.next (runCommand_replies (t := setConnectedFlag b (s.latchFlag b)) hn rfl rfl),
    exec_notInitialised (.setConnected b) s Instr.noConfusion rfl⟩

end Sys2Proof.Machine
end

section
/-! SUPPORT. The wire-reset and wake sequences (41_bitlink_sequences.md): each is its run of driven cycles, after the turnaround if one is
owed, between the entry and the return of a command; what all four leave follows from that one shape. -/

namespace Sys2Proof.Machine

/-! ### A sequence between its entry and its return (R109, R129) -/

/-- A command whose body is a run of wire cycles, up to the sequencer's count, which the return clears (10_state.md R31). -/
theorem runCommand_wires {body : State → State} {s : State} {cs : List Cycle} {out : Bit} (hn : s.link.initialized = true)
    (hb : ∃ q, body (begin s) = ((begin s).wires cs out true).withSeq q) :
    runCommand true (fun u => (.ok, body u)) s = (s.wires cs out true).reply .ok none false 0 := by
  obtain ⟨q, hq⟩ := hb
  rw [runCommand_runs _ s hn, hq, finish_withSeq]
  exact finish_begin rfl (s.wires cs out true)

/-- The shape of the four sequences: the turnaround owed, their own cycles, an `Ok` with nothing decoded. -/
def RunsSequence (i : Instr) (s : State) (cs : List Cycle) (out : Bit) : Prop :=
  exec i s = .next ((s.wires (lead s ++ cs) out true).reply .ok none false 0)

theorem lineReset_runs {s : State} (hr : Ready s) (h : 50 ≤ s.par.lineResetHigh) :
    RunsSequence .lineReset s (lineResetCycles s.par) (decide (s.par.lineResetIdle = 0)) :=
  congrArg Host.Outcome.next (runCommand_wires hr.initialized (lineResetWires_eq (begin s) hr.flagIsDriver h))

theorem switchSequence_runs {s : State} (hr : Ready s) (h : 50 ≤ s.par.lineResetHigh) :
    RunsSequence .switchSequence s (drivenCycles (wireBits s.par.jtagToSwd) ++ lineResetCycles s.par)
      (decide (s.par.lineResetIdle = 0)) :=
  congrArg Host.Outcome.next (runCommand_wires hr.initialized (switchWires_eq (begin s) hr.flagIsDriver h))

theorem dormantWake_runs {s : State} (hr : Ready s) (h : 50 ≤ s.par.lineResetHigh) :
    RunsSequence .dormantWake s (List.replicate s.par.wakePreCycles (.driven s.par.wakePreLevel)
        ++ (drivenCycles (wireBits s.par.selectionAlert) ++ (List.replicate s.par.wakeGapCycles (.driven s.par.wakeGapLevel)
        ++ (drivenCycles (wireBits s.par.activationCode) ++ lineResetCycles s.par))))
      (decide (s.par.lineResetIdle = 0)) :=
  congrArg Host.Outcome.next (runCommand_wires hr.initialized (wakeWires_eq (begin s) hr.flagIsDriver h))

theorem dormantEnter_runs {s : State} (hr : Ready s) :
    RunsSequence .dormantEnter s (List.replicate s.par.discHigh .d1 ++ drivenCycles (wireBits s.par.toDormant))
      (s.par.toDormant.getLsbD 15) :=
  congrArg Host.Outcome.next (runCommand_wires hr.initialized (dormantWires_eq (begin s) hr.flagIsDriver))

/-! ### The four sequences (R120, R122, R124, R127) -/

/-- R120: a record with a shorter line reset is no legal one. -/
theorem step_lineReset_short {s : State} (h : s.par.lineResetHigh < 50) : step s = .fault .illegalParameters := by
  have hl : paramsLegal s.par = false := by simp [paramsLegal, h]
  simp [step, hl]

/-- Settles O24: the body is one line reset. -/
theorem lineReset : Obligations.LineReset := fun s =>
  ⟨fun hr h => by simp only [List.append_assoc]; exact lineReset_runs hr h,
    exec_notInitialised .lineReset s Instr.noConfusion rfl, step_lineReset_short⟩

/-- Settles O25: the body is the 16 bits and one line reset. -/
theorem switchSequence : Obligations.SwitchSequence := fun s =>
  ⟨fun hr h => by simp only [List.append_assoc]; exact switchSequence_runs hr h,
    exec_notInitialised .switchSequence s Instr.noConfusion rfl⟩

/-- Settles O26: the body is two runs of idle cycles, each with its constant after it, and one line reset. -/
theorem dormantWake : Obligations.DormantWake := fun s =>
  ⟨fun hr h => by simp only [List.append_assoc]; exact dormantWake_runs hr h,
    exec_notInitialised .dormantWake s Instr.noConfusion rfl⟩

/-- Settles O27: the body is the high cycles and the 16 bits; `wires` leaves `connected` as it is. -/
theorem dormantEnter : Obligations.DormantEnter := fun s =>
  ⟨fun hr => by simp only [List.append_assoc]; exact dormantEnter_runs hr,
    exec_notInitialised .dormantEnter s Instr.noConfusion rfl⟩

/-! ### What all four leave (R129) -/

theorem lineResetCycles_length (par : Params) : (lineResetCycles par).length = par.lineResetHigh + par.lineResetIdle := by
  simp [lineResetCycles]

/-- Settles O28: each row is a run of driven cycles as long as the row says, and the turnaround owed comes before it. -/
theorem sequencesCommon : Obligations.SequencesCommon := by
  intro s i n hr h hrow
  obtain ⟨cs, out, he, hlen⟩ : ∃ cs out, RunsSequence i s cs out ∧ cs.length = n := by
    simp only [List.mem_cons, Prod.mk.injEq, List.not_mem_nil, or_false] at hrow
    rcases hrow with ⟨rfl, rfl⟩ | ⟨rfl, rfl⟩ | ⟨rfl, rfl⟩ | ⟨rfl, rfl⟩
    · exact ⟨_, _, lineReset_runs hr h, lineResetCycles_length s.par⟩
    · exact ⟨_, _, switchSequence_runs hr h, by simp [lineResetCycles_length]⟩
    · exact ⟨_, _, dormantWake_runs hr h, by simp [lineResetCycles_length, Nat.add_assoc]⟩
    · exact ⟨_, _, dormantEnter_runs hr, by simp⟩
  refine ⟨_, he, ⟨rfl, rfl, rfl, rfl, rfl, rfl, rfl, rfl⟩, rfl, rfl, rfl, rfl, rfl, ?_, List.prefix_append _ _⟩
  show (s.trace ++ (lead s ++ cs)).length = s.trace.length + leadCycles s + n
  rw [List.length_append, List.length_append, lead_length_eq, hlen, Nat.add_assoc]

end Sys2Proof.Machine
end

section
/-! SUPPORT. The parity bit (42_transaction.md R158): `parity32` is the number of ones modulo 2 and goes through exclusive or, so what the
parity check of a read detects is the parity of the bits flipped on the wire. -/

namespace Sys2Proof.Machine

/-! ### The exclusive or of the bits (00_scope.md R11) -/

theorem xorFold_toNat {w : Nat} (v : BitVec w) (n : Nat) :
    (xorFold v n).toNat = (List.range n).countP (fun i => v.getLsbD i) % 2 := by
  induction n with
  | zero => rfl
  | succ n ih =>
    rw [xorFold, List.range_succ, List.countP_append, List.countP_singleton, Nat.add_mod, ← ih]
    cases xorFold v n <;> cases v.getLsbD n <;> rfl

theorem xorFold_xor {w : Nat} (v m : BitVec w) (n : Nat) : xorFold (v ^^^ m) n = (xorFold v n ^^ xorFold m n) := by
  induction n with
  | zero => rfl
  | succ n ih => simp only [xorFold, ih, BitVec.getLsbD_xor, Bool.xor_assoc, Bool.xor_left_comm]

theorem xorFold_oneBit {w i : Nat} (hi : i < w) (n : Nat) : xorFold (1#w <<< i) n = decide (i < n) := by
  have hbit (j : Nat) : (1#w <<< i).getLsbD j = decide (i = j) :=
    (BitVec.getLsbD_twoPow i j).trans (by rw [decide_eq_true hi, Bool.true_and])
  induction n with
  | zero => rfl
  | succ n ih =>
    rw [xorFold, ih, hbit]
    by_cases hlt : i < n
    · simp [hlt, hlt.ne, Nat.lt_succ_of_lt hlt]
    · simp [hlt, Nat.le_antisymm_iff, Nat.not_lt.mp hlt]

/-! ### The laws of `parity32` -/

theorem parity32_toNat (v : Word32) : (parity32 v).toNat = (List.range 32).countP (fun i => v.getLsbD i) % 2 := xorFold_toNat v 32

theorem parity32_oneBit {i : Nat} (hi : i < 32) : parity32 (1#32 <<< i) = true := (xorFold_oneBit hi 32).trans (decide_eq_true hi)

theorem parity32_xor (v m : Word32) : parity32 (v ^^^ m) = (parity32 v ^^ parity32 m) := xorFold_xor v m 32

theorem readOutcome_eq_parityError_iff (w : Word32) (p : Bit) : readOutcome w p = .parityError ↔ p ≠ parity32 w := by
  unfold readOutcome
  split <;> simp_all

/-- The check compares the flip of the parity bit with the parity of the flipped data bits: the word sent cancels. -/
theorem readOutcome_flipped_iff (w m : Word32) (e : Bit) :
    readOutcome (w ^^^ m) (parity32 w ^^ e) = .parityError ↔ e ≠ parity32 m := by
  rw [readOutcome_eq_parityError_iff, parity32_xor, Ne, Bool.xor_right_inj]

/-- Settles O15: the constants are computed, and the laws are that parity counts ones modulo 2 and goes through exclusive or. -/
theorem parityLaws : Obligations.ParityLaws := by
  refine ⟨by decide, fun v i hi => ?_, by decide, by decide, fun w m e => ?_, parity32_toNat⟩
  · rw [parity32_xor, parity32_oneBit hi, Bool.xor_true]
  · rw [readOutcome_flipped_iff, Nat.add_mod, ← parity32_toNat]
    cases e <;> cases parity32 m <;> decide

end Sys2Proof.Machine
end

section
/-! SUPPORT. The turnaround machine (42_transaction.md R141 to R144) and the words that open a frame, presented alone: the header, which
takes the line back, and the acknowledgement, which hands it over. -/

namespace Sys2Proof

namespace Machine

/-! ### The turnaround (R141, R142, R154) -/

/-- `s` with the direction of the line changed: `TRN` released cycles, if any, and the driver and its flag as `driving` says. -/
def State.turned (s : State) (driving : Bool) : State :=
  { s with
    clk     := if s.par.trn = 0 then s.clk else .driven true
    dioOE   := driving
    link    := { s.link with driving := driving }
    sampled := if s.par.trn = 0 then s.sampled else none
    trace   := s.trace ++ turnaround s.sampled s.par.trn
    seq     := { s.seq with bit := if s.par.trn = 0 then s.seq.bit else s.par.trn - 1 } }

theorem ensureDriving_turned {s : State} (hf : s.link.driving = s.dioOE) (hd : s.link.driving = false) :
    ensureDriving s = s.turned true := by
  rw [ensureDriving_eq s hf, if_neg (by simp [hd])]
  by_cases hn : s.par.trn = 0
  · simp [State.turned, hn, drive, turnaround]
  · simp [State.turned, hn, State.wires, State.withSeq, lead, hd]

theorem turnToTarget_turned {s : State} (hd : s.link.driving = true) : turnToTarget s = s.turned false := by
  rw [turnToTarget_driving s hd]
  by_cases hn : s.par.trn = 0
  · simp [State.turned, hn, release, turnaround]
  · simp [State.turned, hn, State.wires, State.withSeq]

end Machine

/-- Settles O29: the two identity cases, and the two that change the direction. (`Machine.turnaround` is the list of cycles.) -/
protected theorem turnaround : Obligations.Turnaround := fun s hf =>
  ⟨fun hd => by rw [Machine.ensureDriving, if_pos hd], Machine.ensureDriving_turned hf, Machine.turnToTarget_released s,
    Machine.turnToTarget_turned⟩

namespace Machine

/-! ### The request headers presented alone (30_encoding.md Table RQ, assumption 9) -/

/-- A header presented alone leaves the line driven at its park bit, the last of the eight. -/
theorem emitHeader_eq {h : BitVec 8} {s : State} (hr : Ready s) :
    emitHeader h s = (s.wires (lead s ++ drivenCycles (wireBits h)) (h.getLsbD 7) true).reply .ok none false 0 :=
  runCommand_wires hr.initialized ⟨_, sendHeader_eq h (begin s) hr.flagIsDriver⟩

/-- Settles O58: each row presents its header, and the park bit of all sixteen is 1. -/
theorem headerRows : Obligations.HeaderRows := by
  intro s i h hr hrow
  obtain ⟨he, hpark⟩ : exec i s = .next (emitHeader h s) ∧ h.getLsbD 7 = true := by fin_cases hrow <;> exact ⟨rfl, rfl⟩
  rw [he, emitHeader_eq hr, hpark]

/-! ### The acknowledgements presented alone (30_encoding.md Table AK, assumption 10) -/

/-- Phases `TRN1` and `ACK` from either direction of the line (R142, R146). -/
theorem receiveAck_eq (a : BitVec 3) (rest : List Bit) (s : State) (hf : s.link.driving = s.dioOE) (ha : s.answers = wireBits a ++ rest) :
    receiveAck s = (decodeAck s.par a,
      (((s.leaving rest).wires ((if s.link.driving then turnaround s.sampled s.par.trn else []) ++ sampledCycles (wireBits a))
        s.dioOut false).recordAck (decodeAck s.par a) false).withSeq { s.seq with phase := .ack, bit := 2 }) := by
  cases hd : s.link.driving with
  | true => exact receiveAck_driving a rest s hd ha
  | false => exact receiveAck_released a rest s hd (hf ▸ hd) ha

/-- The answers the target gives are the three bits presented, so the script is left as it was. -/
theorem answerAck_eq {a : BitVec 3} {s : State} (hr : Ready s) :
    answerAck a s = (s.wires ((if s.link.driving then turnaround s.sampled s.par.trn else []) ++ sampledCycles (wireBits a))
      s.dioOut false).reply .ok (some (decodeAck s.par a)) false 0 := by
  rw [answerAck, runCommand_runs _ s hr.initialized,
    show receiveAck { begin s with answers := wireBits a ++ (begin s).answers } = _ from
      receiveAck_eq a s.answers _ hr.flagIsDriver rfl]
  rfl

/-- Settles O59: each row presents its acknowledgement. -/
theorem ackRows : Obligations.AckRows := by
  intro s i a hr hrow
  have he : exec i s = .next (answerAck a s) := by fin_cases hrow <;> rfl
  rw [he, answerAck_eq hr]

end Machine

end Sys2Proof
end

section
/-! SUPPORT. `transfer` (42_transaction.md R140 to R153): the entry and the return of the command around one frame, for the three shapes of
Table TF, and what a frame reads of its data operand. -/

namespace Sys2Proof.Machine

/-! ### One frame between its entry and its return (R152) -/

/-- `transfer` returns the outcome of its frame, and the response port shows it (60_exceptions.md R190). -/
theorem exec_transfer {s : State} {addr : Addr} {isAP isRead : Bit} {data : Word32} {o : FrameOutcome} {rest : List Bit}
    {cs : List Cycle} {out d : Bit} {a : Ack} {pe : Bool} (hn : s.link.initialized = true) (hal : aligned addr = true)
    (h : (frame ⟨addr, isAP, isRead, data⟩ (begin (s.latchTransfer addr isAP isRead data))).1 = o ∧
      After (begin (s.latchTransfer addr isAP isRead data))
        (frame ⟨addr, isAP, isRead, data⟩ (begin (s.latchTransfer addr isAP isRead data))).2 rest cs out d a pe 0) :
    exec (.transfer addr isAP isRead data) s =
      .next ((((s.latchTransfer addr isAP isRead data).leaving rest).wires cs out d).reply (.okOutcome o) (some o.toAck)
        (o == .parityError) 0) := by
  rw [exec, execTransfer, hal, runCommand_runs _ (s.latchTransfer addr isAP isRead data) hn]
  exact congrArg Host.Outcome.next (h.2.returns (x := transferBody _) (congrArg CmdResult.okOutcome h.1))

/-- A read answered `OK`, whatever its parity bit (Table TF, R147, R149). -/
theorem exec_transfer_read {s : State} {addr : Addr} {isAP : Bit} {data w : Word32} {a : BitVec 3} {p : Bit} {rest : List Bit}
    (hr : Ready s) (hal : aligned addr = true) (hk : decodeAck s.par a = .ok)
    (ha : s.answers = wireBits a ++ wireBits w ++ p :: rest) :
    exec (.transfer addr isAP true data) s = .next ((((s.latchTransfer addr isAP true data).leaving rest).wires
      (lead s ++ readFrame s.par ⟨addr, isAP, true, data⟩ a w p) s.par.parkBit false).reply
        (.okOutcome (readOutcome w p)) (some (readOutcome w p).toAck) (readOutcome w p == .parityError) 0) :=
  exec_transfer hr.initialized hal (frame_read_after ⟨addr, isAP, true, data⟩ a w p rest
    (begin (s.latchTransfer addr isAP true data)) hr.flagIsDriver rfl hk (ha.trans (List.append_assoc _ _ _)))

/-- A write answered `OK` (Table TF, R148). -/
theorem exec_transfer_write {s : State} {addr : Addr} {isAP : Bit} {data : Word32} {a : BitVec 3} {rest : List Bit}
    (hr : Ready s) (hal : aligned addr = true) (hk : decodeAck s.par a = .ok) (ha : s.answers = wireBits a ++ rest) :
    exec (.transfer addr isAP false data) s = .next ((((s.latchTransfer addr isAP false data).leaving rest).wires
      (lead s ++ writeFrame s.par ⟨addr, isAP, false, data⟩ a) (restLevel s.par (parity32 data)) true).reply
        (.okOutcome .ok) (some .ok) false 0) :=
  exec_transfer hr.initialized hal (frame_write_after ⟨addr, isAP, false, data⟩ a rest
    (begin (s.latchTransfer addr isAP false data)) hr.flagIsDriver rfl hk ha)

theorem outcomeOf_toAck (k : Ack) : (outcomeOf k).toAck = k := by cases k <;> rfl

theorem outcomeOf_ne_parityError (k : Ack) : (outcomeOf k == .parityError) = false := by cases k <;> rfl

/-- Any other answer, to a read or a write (Table TF, R150). -/
theorem exec_transfer_drain {s : State} {addr : Addr} {isAP isRead : Bit} {data : Word32} {a : BitVec 3} {rest : List Bit}
    (hr : Ready s) (hal : aligned addr = true) (hk : decodeAck s.par a ≠ .ok) (ha : s.answers = wireBits a ++ rest) :
    exec (.transfer addr isAP isRead data) s = .next ((((s.latchTransfer addr isAP isRead data).leaving rest).wires
      (lead s ++ drainFrame s.par ⟨addr, isAP, isRead, data⟩ a) (restLevel s.par s.par.drainPark) true).reply
        (.okOutcome (outcomeOf (decodeAck s.par a))) (some (decodeAck s.par a)) false 0) := by
  have h := exec_transfer hr.initialized hal (frame_drain_after ⟨addr, isAP, isRead, data⟩ a rest
    (begin (s.latchTransfer addr isAP isRead data)) hr.flagIsDriver hk ha)
  rwa [outcomeOf_toAck, outcomeOf_ne_parityError] at h

/-! ### The four outcomes, cycle by cycle (30_encoding.md Table TF) -/

theorem restLevel_eq (par : Params) (last : Bit) : restLevel par last = if 0 < par.postIdle then false else last := by
  rcases Nat.eq_zero_or_pos par.postIdle with h | h
  · simp [restLevel, h]
  · simp [restLevel, h, h.ne']

/-- Settles O30: a parity bit that agrees makes the outcome the word. -/
theorem transferRead : Obligations.TransferRead := by
  intro s addr isAP data w a rest hr hal hk ha
  have ho : readOutcome w (parity32 w) = .okData w := if_pos rfl
  rw [exec_transfer_read hr hal hk ha, ho]
  simp only [readFrame, requestCycles, headerCycles, trnCycles, List.append_assoc]
  rfl

/-- Settles O31: one that differs makes it `PARITY_ERROR`, with the acknowledgement `OK`. -/
theorem transferParityError : Obligations.TransferParityError := by
  intro s addr isAP data w a rest hr hal hk ha
  have ho : readOutcome w (!parity32 w) = .parityError := if_neg (by simp)
  rw [exec_transfer_read hr hal hk ha, ho]
  simp only [readFrame, requestCycles, headerCycles, trnCycles, List.append_assoc]
  rfl

/-- Settles O32: `writeFrame` gives the cycles, and the line rests at the parity bit unless idle cycles follow it. -/
theorem transferWrite : Obligations.TransferWrite := by
  intro s addr isAP data a rest hr hal hk ha
  rw [exec_transfer_write hr hal hk ha, restLevel_eq]
  simp only [writeFrame, requestCycles, headerCycles, trnCycles, postCycles, List.append_assoc]

/-- Settles O33: `drainFrame` gives the cycles, and the line rests at the park bit unless idle cycles follow it. -/
theorem transferDrain : Obligations.TransferDrain := by
  intro s addr isAP isRead data a rest hr hal hk ha
  rw [exec_transfer_drain hr hal hk ha, restLevel_eq]
  simp only [drainFrame, requestCycles, headerCycles, trnCycles, postCycles, List.append_assoc]

/-! ### What a frame reads of its data operand (R140, R150) -/

/-- After the acknowledgement the operand is read by the write phases alone, whose outcome is `OK`. -/
theorem framePhases_congr_data {q : Request} {k : Ack} {t : State} (data : Word32)
    (h : q.isRead = true ∨ (framePhases q k t).1 ≠ .ok) : framePhases { q with data := data } k t = framePhases q k t := by
  cases k with
  | ok =>
    cases hq : q.isRead with
    | true => simp [framePhases, hq]
    | false => simp [framePhases, hq] at h
  | wait | fault | protocolError => rfl

/-- Settles O35: a frame opens without its data operand, and goes on by `framePhases_congr_data`. -/
theorem dataOperandIgnored : Obligations.DataOperandIgnored := by
  intro q data s
  have key (h : q.isRead = true ∨ (frame q s).1 ≠ .ok) : frame { q with data := data } s = frame q s := by
    simp only [frame] at h ⊢
    rw [framePhases_congr_data data h]
  exact ⟨fun h => key (.inl h), fun h => key (.inr h)⟩

end Sys2Proof.Machine
end

section
/-! SUPPORT. Register access on a scripted target (43_register_access.md R170 to R180): how a loop ends is one fact about every state it
may start from, and so about the loop of `dpRead`, `dpWrite` and `apWrite` and about either loop of `apRead`. -/

namespace Sys2Proof.Machine

/-! ### How a loop ends, wherever it starts -/

/-- From every state with the parameters `par` and a target about to answer `ans` and then `rest`, the loop on `q` returns `r` after the
turnaround owed and the cycles `cs`, the rest as in `After`. -/
def LoopEnds (par : Params) (q : Request) (ans rest : List Bit) (r : CmdResult) (cs : List Cycle) (out : Bit) (d : Bool) (a : Ack)
    (pe : Bool) (k : Nat) : Prop :=
  ∀ u : State, u.par = par → u.link.driving = u.dioOE → u.answers = ans →
    (retry q u).1 = r ∧ After u (retry q u).2 rest (lead u ++ cs) out d a pe k

section ends

variable {par : Params} {q : Request} {fs : List Failure} (rest : List Bit)

theorem loopEnds_word (w : Word32) (hf : ∀ f ∈ fs, f.retried par q) (hq : q.isRead = true) (hn : fs.length < par.retryBound) :
    LoopEnds par q (failureAnswers par fs ++ (wireBits par.ackOk ++ (wireBits w ++ parity32 w :: rest))) rest (.okWord w)
      (failureCycles par q fs ++ readFrame par q par.ackOk w (parity32 w)) par.parkBit false .ok false (fs.length + 1) := by
  rintro u rfl hu ha
  exact retry_reads q fs rest u hf hu w hq hn ha

theorem loopEnds_written (hf : ∀ f ∈ fs, f.retried par q) (hq : q.isRead = false) (hn : fs.length < par.retryBound) :
    LoopEnds par q (failureAnswers par fs ++ (wireBits par.ackOk ++ rest)) rest .ok
      (failureCycles par q fs ++ writeFrame par q par.ackOk) (restLevel par (parity32 q.data)) true .ok false (fs.length + 1) := by
  rintro u rfl hu ha
  exact retry_writes q fs rest u hf hu hq hn ha

/-- The error of an abort write that is not acknowledged `OK` (R176, R178). -/
theorem abortResult_outcomeOf {k : Ack} (hk : k ≠ .ok) :
    abortResult (outcomeOf k) = .err (if k = .wait then .protocolTimeout else .protocolFault) (some (outcomeOf k)) := by
  cases k with
  | ok => exact absurd rfl hk
  | wait | fault | protocolError => rfl

theorem loopEnds_abortFailed {a : BitVec 3} (hf : ∀ f ∈ fs, f.retried par q) (hd : AcksDistinct par) (hk : decodeAck par a ≠ .ok)
    (hn : fs.length < par.retryBound) :
    LoopEnds par q (failureAnswers par fs ++ (wireBits par.ackFault ++ (wireBits a ++ rest))) rest
      (.err (if decodeAck par a = .wait then .protocolTimeout else .protocolFault) (some (outcomeOf (decodeAck par a))))
      (failureCycles par q fs ++ (drainFrame par q par.ackFault ++ drainFrame par (abortRequest par) a))
      (restLevel par par.drainPark) true (decodeAck par a) false (fs.length + 1) := by
  rintro u rfl hu ha
  rw [← abortResult_outcomeOf hk]
  exact retry_abortFails q fs rest u hf hu a hd hk hn ha

theorem loopEnds_invalidAck {a : BitVec 3} (hf : ∀ f ∈ fs, f.retried par q) (hpol : par.nonretryPolicy = .failFast)
    (hk : decodeAck par a = .protocolError) (hn : fs.length < par.retryBound) :
    LoopEnds par q (failureAnswers par fs ++ (wireBits a ++ rest)) rest (.err .protocolFault (some .protocolError))
      (failureCycles par q fs ++ drainFrame par q a) (restLevel par par.drainPark) true .protocolError false (fs.length + 1) := by
  rintro u rfl hu ha
  exact retry_badAck q fs rest u hf hu a hpol hk hn ha

theorem loopEnds_parityError (w : Word32) (hf : ∀ f ∈ fs, f.retried par q) (hq : q.isRead = true)
    (hpol : par.nonretryPolicy = .failFast) (hn : fs.length < par.retryBound) :
    LoopEnds par q (failureAnswers par fs ++ (wireBits par.ackOk ++ (wireBits w ++ (!parity32 w) :: rest))) rest
      (.err .protocolFault (some .parityError)) (failureCycles par q fs ++ readFrame par q par.ackOk w (!parity32 w)) par.parkBit false
      .ok true (fs.length + 1) := by
  rintro u rfl hu ha
  exact retry_badParity q fs rest u hf hu w _ hq (by simp) hpol hn ha

theorem loopEnds_timeout {l : Failure} (hf : ∀ f ∈ fs ++ [l], f.retried par q) (hn : fs.length + 1 = par.retryBound) :
    LoopEnds par q (failureAnswers par (fs ++ [l]) ++ rest) rest (.err .protocolTimeout (some l.outcome))
      (failureCycles par q fs ++ l.cycles par q) (l.level par) (drivesAfter l.outcome) l.lastAck (l.outcome == .parityError)
      par.retryBound := by
  rintro u rfl hu ha
  exact retry_exhausts q fs l rest u hf hu hn ha

end ends

/-! ### The commands whose last loop ends so (R172 to R175) -/

section commands

variable {s : State} {q : Request} {ans rest : List Bit} {r : CmdResult} {cs : List Cycle} {out : Bit} {d : Bool} {a : Ack} {pe : Bool}
  {k : Nat}

/-- The loop that an instruction runs first starts after the entry of the command. -/
theorem LoopEnds.first (h : LoopEnds s.par q ans rest r cs out d a pe k) (hr : Ready s) (ha : s.answers = ans) (i : Instr) :
    (retry q (begin (s.issued i))).1 = r ∧
      After (begin (s.issued i)) (retry q (begin (s.issued i))).2 rest (lead s ++ cs) out d a pe k := by
  obtain ⟨hpar, hans, hlink, hoe, hlead⟩ := issued_frame i s
  rw [← hlead]
  refine h _ hpar ?_ (hans.trans ha)
  show (s.issued i).link.driving = (s.issued i).dioOE
  rw [hlink, hoe, hr.flagIsDriver]

/-- A command that is one loop returns what the loop does. -/
theorem LoopEnds.exec_loop (h : LoopEnds s.par q ans rest r cs out d a pe k) (hr : Ready s) {i : Instr} (hi : loopRequest i = some q)
    (hal : aligned q.addr = true) (ha : s.answers = ans) :
    exec i s = .next ((((s.issued i).leaving rest).wires (lead s ++ cs) out d).reply r (finalAck r (some a)) (finalParityError r pe) k) := by
  obtain ⟨hres, hafter⟩ := h.first hr ha i
  rw [Machine.exec_loop i q s hr.initialized hi hal, hafter.returns hres]

/-- A command whose first loop returns an error returns it. -/
theorem LoopEnds.exec_firstLoop {e : ErrorClass} {o : Option FrameOutcome} (h : LoopEnds s.par q ans rest (.err e o) cs out d a pe k)
    (hr : Ready s) {i : Instr} (hi : LoopsOn i q) (hal : aligned q.addr = true) (ha : s.answers = ans) :
    exec i s = .next ((((s.issued i).leaving rest).wires (lead s ++ cs) out d).reply (.err e o) (finalAck (.err e o) (some a))
      (finalParityError (.err e o) pe) k) := by
  obtain ⟨hres, hafter⟩ := h.first hr ha i
  rw [exec_firstLoop_err hr.initialized hi hal hres, hafter.returns hres]

/-- `apRead` whose first loop succeeds returns what the second does, and the attempts are summed (R174). -/
theorem LoopEnds.exec_apRead (h : LoopEnds s.par (rdbuffRequest s.par) ans rest r cs out d a pe k) (hr : Ready s) {addr : Addr}
    {gs : List Failure} {stale : Word32} (hp : Posted s.par addr gs) (ha : s.answers = postedAnswers s.par gs stale ++ ans) :
    exec (.apRead addr) s = .next ((((s.latchAddr addr).leaving rest).wires (lead s ++ (postedCycles s.par addr gs stale ++ cs)) out
      d).reply r (finalAck r (some a)) (finalParityError r pe) (gs.length + 1 + k)) := by
  obtain ⟨t, hfirst, he⟩ := exec_apRead_second hr hp ha
  obtain ⟨hres, hsecond⟩ := h t hfirst.par hfirst.flag hfirst.ans
  have hboth := hfirst.trans hsecond
  rw [hfirst.lead_eq] at hboth
  rw [he, hboth.returns hres]
  simp only [postedCycles, List.append_assoc]
  rfl

/-- An error that ends the loop on any request ends the command from the loop of `dpRead`, `dpWrite` and `apWrite` and from either loop of
`apRead`. -/
theorem error_ends_command {P : Request → Prop} {cycles : Request → List Cycle} {e : ErrorClass} {o : FrameOutcome} (hr : Ready s)
    (h : ∀ q, P q → LoopEnds s.par q ans rest (.err e (some o)) (cycles q) out d a pe k) :
    (∀ i q, LoopsOn i q → aligned q.addr = true → P q → s.answers = ans →
      exec i s = .next ((((s.issued i).leaving rest).wires (lead s ++ cycles q) out d).reply (.err e (some o)) (some o.toAck)
        (o == .parityError) k)) ∧
    (∀ addr gs stale, Posted s.par addr gs → P (rdbuffRequest s.par) → s.answers = postedAnswers s.par gs stale ++ ans →
      exec (.apRead addr) s = .next ((((s.latchAddr addr).leaving rest).wires
        (lead s ++ (postedCycles s.par addr gs stale ++ cycles (rdbuffRequest s.par))) out d).reply (.err e (some o)) (some o.toAck)
        (o == .parityError) (gs.length + 1 + k))) :=
  ⟨fun _ q hi hal hP ha => (h q hP).exec_firstLoop hr hi hal ha, fun _ _ _ hp hP ha => (h _ hP).exec_apRead hr hp ha⟩

end commands

/-! ### The errors that end a command -/

/-- Settles O42: a failed abort write ends the loop with its error, whatever the policy. -/
theorem abortFailureEndsLoop : Obligations.AbortFailureEndsLoop := by
  intro s fs a rest hr hd hk hn
  have key := error_ends_command (P := fun q => ∀ f ∈ fs, f.retried s.par q) hr
    fun q hf => loopEnds_abortFailed rest hf hd hk hn
  rw [outcomeOf_toAck, outcomeOf_ne_parityError] at key
  simpa only [List.append_assoc] using key

/-- Settles O43: under `fail_fast` an invalid acknowledgement ends the loop. -/
theorem invalidAckEndsLoop : Obligations.InvalidAckEndsLoop := by
  intro s fs a rest hr hpol hk hn
  simp only [List.append_assoc]
  exact error_ends_command hr fun q hf => loopEnds_invalidAck rest hf hpol hk hn

/-- Settles O44: under `fail_fast` a parity error ends the loop of a read, and both loops of `apRead` are reads. -/
theorem parityErrorEndsLoop : Obligations.ParityErrorEndsLoop := by
  intro s fs w rest hr hpol hn
  obtain ⟨first, second⟩ := error_ends_command (P := fun q => q.isRead = true ∧ ∀ f ∈ fs, f.retried s.par q) hr
    fun q hP => loopEnds_parityError rest w hP.2 hP.1 hpol hn
  simp only [List.append_assoc]
  exact ⟨fun i q hi hq hal hf => first i q hi hal ⟨hq, hf⟩, fun addr gs stale hp hf => second addr gs stale hp ⟨rfl, hf⟩⟩

/-- Settles O45: failed attempts alone spend the budget. -/
theorem retryPolicyTimesOut : Obligations.RetryPolicyTimesOut := by
  intro s fs l rest hr hn
  simp only [List.append_assoc]
  exact error_ends_command hr fun q hf => loopEnds_timeout rest hf hn

/-! ### The answers that end a command -/

/-- Settles O46: after failed attempts the answer of the last loop is the command's. -/
theorem retryPolicyRereads : Obligations.RetryPolicyRereads := by
  intro s addr fs rest hr hal hn
  simp only [List.append_assoc]
  refine ⟨fun w hf ha => ?_, fun gs stale w hp hf ha => ?_, fun isAP data hf ha => ?_⟩
  · exact (loopEnds_word rest w hf rfl hn).exec_loop (i := .dpRead addr) hr rfl hal ha
  · exact (loopEnds_word rest w hf rfl hn).exec_apRead hr hp ha
  · have h := loopEnds_written rest hf rfl hn
    cases isAP with
    | true => exact h.exec_loop (i := .apWrite addr data) hr rfl hal ha
    | false => exact h.exec_loop (i := .dpWrite addr data) hr rfl hal ha

/-! ### Setbacks are failed attempts under either policy (Table RM) -/

theorem setbackCycles_concat (par : Params) (q : Request) (h : List Setback) (b : Setback) :
    setbackCycles par q (h ++ [b]) = failureCycles par q (h.map .setback) ++ (Failure.setback b).cycles par q := by
  simp [failureCycles_setbacks, setbackCycles, Failure.cycles]

theorem Setback.drivesAfter_outcome (b : Setback) : drivesAfter b.outcome = true := by cases b <;> rfl

theorem Setback.outcome_ne_parityError (b : Setback) : (b.outcome == .parityError) = false := by cases b <;> rfl

theorem loopEnds_setbacks {par : Params} {q : Request} (hd : AcksDistinct par) {h : List Setback} (b : Setback) (rest : List Bit)
    (hn : h.length + 1 = par.retryBound) :
    LoopEnds par q (setbackAnswers par (h ++ [b]) ++ rest) rest (.err .protocolTimeout (some b.outcome))
      (setbackCycles par q (h ++ [b])) (b.level par) true b.lastAck false par.retryBound := by
  have hmap : (h ++ [b]).map Failure.setback = h.map .setback ++ [.setback b] := List.map_append
  have key := loopEnds_timeout (par := par) (q := q) (fs := h.map .setback) (l := .setback b) rest
    (hmap ▸ retried_setbacks hd q (h ++ [b])) (by rwa [List.length_map])
  rw [← hmap, failureAnswers_setbacks, ← setbackCycles_concat] at key
  simpa only [Failure.outcome, Failure.level, Failure.lastAck, b.drivesAfter_outcome, b.outcome_ne_parityError] using key

theorem postedCycles_setbacks (par : Params) (addr : Addr) (h : List Setback) (stale : Word32) :
    postedCycles par addr (h.map .setback) stale = setbackCycles par (apReadRequest addr) h
      ++ readFrame par (apReadRequest addr) par.ackOk stale (parity32 stale) ++ trnCycles par := by
  rw [postedCycles, failureCycles_setbacks]

theorem postedAnswers_setbacks (par : Params) (h : List Setback) (stale : Word32) (ans : List Bit) :
    postedAnswers par (h.map .setback) stale ++ ans
      = setbackAnswers par h ++ wireBits par.ackOk ++ wireBits stale ++ parity32 stale :: ans := by
  simp [postedAnswers, failureAnswers_setbacks]

theorem posted_setbacks {par : Params} (hd : AcksDistinct par) {addr : Addr} (hal : aligned addr = true) {h : List Setback}
    (hn : h.length < par.retryBound) : Posted par addr (h.map .setback) :=
  ⟨hal, by rwa [List.length_map], retried_setbacks hd _ h⟩

/-- Settles O36, by `RetryPolicyRereads` on a run of setbacks. -/
theorem dpReadReturnsWord : Obligations.DpReadReturnsWord := by
  intro s addr h w rest hr hd hal hn ha
  have key := (retryPolicyRereads s addr (h.map .setback) rest hr hal (by rwa [List.length_map])).1 w (retried_setbacks hd _ h)
    (by rw [failureAnswers_setbacks, ha])
  simpa only [failureCycles_setbacks, List.length_map] using key

/-- Settles O37, by `RetryPolicyRereads` on a run of setbacks. -/
theorem writesReturnOk : Obligations.WritesReturnOk := by
  intro s addr data h rest hr hd hal hn ha
  have key (isAP : Bit) := (retryPolicyRereads s addr (h.map .setback) rest hr hal (by rwa [List.length_map])).2.2 isAP data
    (retried_setbacks hd _ h) (by rw [failureAnswers_setbacks, ha])
  simp only [failureCycles_setbacks, List.length_map] at key
  exact ⟨key false, key true⟩

/-- Settles O38, by `RetryPolicyRereads` on runs of setbacks in both loops. -/
theorem apReadReturnsBufferedWord : Obligations.ApReadReturnsBufferedWord := by
  intro s addr h g stale w rest hr hd hal hn hm ha
  have key := (retryPolicyRereads s addr (g.map .setback) rest hr hal (by rwa [List.length_map])).2.1 (h.map .setback) stale w
    (posted_setbacks hd hal hn) (retried_setbacks hd _ g) (by rw [postedAnswers_setbacks, failureAnswers_setbacks, ha])
  simp only [postedCycles_setbacks, failureCycles_setbacks, List.length_map, List.append_assoc] at key ⊢
  exact key

/-- Settles O39: setbacks alone spend the budget of a command of one loop. -/
theorem loopTimesOut : Obligations.LoopTimesOut := by
  intro s i q h b rest hr hd hi hal hn ha
  rw [(loopEnds_setbacks hd b rest hn).exec_loop hr hi hal ha]
  simp only [finalParityError, CmdResult.info, b.outcome_ne_parityError]
  rfl

/-- Settles O40: setbacks alone spend the budget of the first loop, whose error is the command's. -/
theorem apReadTimesOutFirst : Obligations.ApReadTimesOutFirst := by
  intro s addr h b rest hr hd hal hn ha
  rw [(loopEnds_setbacks hd b rest hn).exec_firstLoop hr (.inr ⟨addr, rfl, rfl⟩) hal ha]
  simp only [finalParityError, CmdResult.info, b.outcome_ne_parityError]
  rfl

/-- Settles O41: setbacks alone spend the budget of the second loop. -/
theorem apReadTimesOutSecond : Obligations.ApReadTimesOutSecond := by
  intro s addr h g b stale rest hr hd hal hn hm ha
  rw [(loopEnds_setbacks hd b rest hm).exec_apRead hr (posted_setbacks hd hal hn) (ha.trans (postedAnswers_setbacks ..).symm)]
  simp only [postedCycles_setbacks, List.length_map, List.append_assoc, finalParityError, CmdResult.info, b.outcome_ne_parityError]
  rfl

/-! ### clearErrors (R176) -/

/-- `clearErrors` returns what its abort write does. -/
theorem exec_clearErrors {s : State} {r : CmdResult} {rest : List Bit} {cs : List Cycle} {out d : Bit} {a : Ack} {pe : Bool}
    (hr : Ready s) (h : (clearErrorsBody (begin s)).1 = r ∧ After (begin s) (clearErrorsBody (begin s)).2 rest cs out d a pe 0) :
    exec .clearErrors s = .next (((s.leaving rest).wires cs out d).reply r (finalAck r (some a)) (finalParityError r pe) 0) := by
  rw [exec, execClearErrors, runCommand_runs _ s hr.initialized, h.2.returns h.1]

/-- An abort write that is not acknowledged `OK` is drained, and its acknowledgement gives the error. -/
theorem exec_clearErrors_drained {s : State} {a : BitVec 3} {k : Ack} {rest : List Bit} (hr : Ready s) (hk : decodeAck s.par a = k)
    (hne : k ≠ .ok) (ha : s.answers = wireBits a ++ rest) :
    exec .clearErrors s = .next (((s.leaving rest).wires (lead s ++ drainFrame s.par (abortRequest s.par) a)
      (restLevel s.par s.par.drainPark) true).reply (abortResult (outcomeOf k)) (some k) false 0) := by
  have hclear := clearErrors_notOk a rest (begin s) hr.flagIsDriver (by rwa [begin_par, hk]) ha
  rw [begin_par, hk] at hclear
  rw [exec_clearErrors hr hclear]
  cases k with
  | ok => exact absurd rfl hne
  | wait | fault | protocolError => rfl

/-- Settles O47: one frame, the result by its acknowledgement, and the state check before it. -/
theorem clearErrors : Obligations.ClearErrors := fun s a rest ha =>
  ⟨fun hr hk => exec_clearErrors hr (clearErrors_ok a rest (begin s) hr.flagIsDriver hk ha),
    fun hr hk => exec_clearErrors_drained hr hk Ack.noConfusion ha,
    fun hr hk => exec_clearErrors_drained hr hk Ack.noConfusion ha,
    fun hr hk => exec_clearErrors_drained hr hk Ack.noConfusion ha,
    exec_notInitialised .clearErrors s Instr.noConfusion rfl⟩

/-! ### The attempts a command reports (R33, R174, R177) -/

/-- A run counts at most the attempts of its own instruction. -/
theorem Ran.attempts_le_maxAttempts {i : Instr} {u : State} {x : CmdResult × State} (h : Ran i u x) :
    x.2.res.attempts ≤ u.res.attempts + maxAttempts u i := by
  cases h with
  | refused | init => exact Nat.le_add_right _ _
  | body _ hn h =>
    cases h with
    | wire r t hr w => exact w.attempts
    | reset | connected => exact Nat.le_add_right _ _

/-- The entry clears the count, and the return shows it. -/
theorem exec_attempts_le {i : Instr} {s t : State} (h : exec i s = .next t) : t.res.attempts ≤ maxAttempts (s.issued i) i := by
  obtain ⟨x, hx, rfl⟩ := exec_ran h
  exact hx.attempts_le_maxAttempts.trans_eq (Nat.zero_add _)

theorem maxAttempts_of_loopRequest {i : Instr} {q : Request} (h : loopRequest i = some q) (s : State) :
    maxAttempts s i = s.par.retryBound := by
  cases i with
  | dpRead | dpWrite | apWrite => rfl
  | _ => cases h

theorem maxAttempts_of_no_loop {i : Instr} (h : loopRequest i = none) (hap : ∀ a, i ≠ .apRead a) (s : State) : maxAttempts s i = 0 := by
  cases i with
  | dpRead | dpWrite | apWrite => cases h
  | apRead a => exact absurd rfl (hap a)
  | _ => rfl

/-- Settles O51: the attempts of a run are those of its loops. -/
theorem attemptsBounded : Obligations.AttemptsBounded := by
  intro s t i h
  have hle := exec_attempts_le h
  refine ⟨?_, ?_, fun hn hap => ?_⟩
  · rintro ⟨q, hq⟩
    rwa [maxAttempts_of_loopRequest hq, issued_par] at hle
  · rintro ⟨a, rfl⟩
    exact hle
  · rwa [maxAttempts_of_no_loop hn hap, Nat.le_zero] at hle

end Sys2Proof.Machine
end

section
/-! SUPPORT. Errors (60_exceptions.md): an instruction is refused by its entry for one of two causes, or its body runs and returns none of
the entry's classes; and the direction of the line follows the result that a command of frames returns. -/

namespace Sys2Proof.Machine

/-! ### Before init (R194) -/

theorem codeAssigned_of_isCommand {i : Instr} (h : isCommand i = true) : i.codeAssigned = true := by
  cases i with
  | reserved17 | reserved18 | reserved19 | reserved20 | reserved21 | reserved22 | reserved23 | reserved24 | reserved25 | reserved26
  | reserved27 | reserved28 | reserved29 | reserved30 | reserved31 => cases h
  | _ => rfl

/-- Settles O48: a command has an assigned code, so the state check is the first of its entry. -/
theorem notInitialised : Obligations.NotInitialised := fun s i hn hc hi =>
  exec_notInitialised i s hi (codeAssigned_of_isCommand hc) hn

/-! ### The two causes of a refusal (R192, R194, Table EC) -/

/-- What `InvalidArgument` is returned on. -/
def ArgumentCause (s : State) (i : Instr) : Prop :=
  i.codeAssigned = false ∨ (i = .init ∧ configOk s.par s.op.config = false) ∨
    (s.link.initialized = true ∧ (i.addrAligned = false ∨ ((∃ b, i = .setResetPin b) ∧ s.cfg.pinRst = none)))

/-- What `InvalidState` is returned on. -/
def StateCause (s : State) (i : Instr) : Prop := i.codeAssigned = true ∧ i ≠ .init ∧ s.link.initialized = false

/-- The code is tested before the state, and the state before the other arguments (R200). -/
theorem StateCause.not_argumentCause {s : State} {i : Instr} (h : StateCause s i) : ¬ArgumentCause s i := by
  obtain ⟨hc, hi, hn⟩ := h
  simp [ArgumentCause, hc, hi, hn]

/-- The argument check of an entry fails on a misaligned address or a missing reset pin. -/
theorem argumentsOk_eq_false_iff (s : State) (i : Instr) :
    argumentsOk s i = false ↔ i.addrAligned = false ∨ ((∃ b, i = .setResetPin b) ∧ s.cfg.pinRst = none) := by
  cases i <;> simp [argumentsOk, Instr.addrAligned]

theorem argumentCause_iff_of_initialized {s : State} {i : Instr} (hc : i.codeAssigned = true) (hi : i ≠ .init)
    (hn : s.link.initialized = true) : ArgumentCause s i ↔ argumentsOk s i = false := by
  rw [argumentsOk_eq_false_iff]
  simp [ArgumentCause, hc, hi, hn]

theorem argumentCause_init_iff (s : State) : ArgumentCause s .init ↔ configOk s.par s.op.config = false := by
  simp [ArgumentCause, Instr.codeAssigned, Instr.addrAligned]

theorem not_stateCause_init (s : State) : ¬StateCause s .init := fun h => h.2.1 rfl

/-! ### Refused by the entry, or run -/

/-- The result classes of a body (Table EC). -/
def bodyStatuses : List Status := [.ok, .error .protocolTimeout, .error .protocolFault]

theorem CmdResult.fromBody.status {r : CmdResult} (h : r.fromBody) : r.status ∈ bodyStatuses := by
  cases r with
  | ok | okBit | okWord | okOutcome => exact List.mem_cons_self
  | err c info => rcases h with rfl | rfl <;> simp [CmdResult.status, bodyStatuses]

theorem BodyRun.fromBody {i : Instr} {u : State} {x : CmdResult × State} (h : BodyRun i u x) : x.1.fromBody := by
  cases h with
  | wire r t hr => exact hr
  | reset | connected => trivial

/-- The three ways in which instruction `i` takes `s` to `t`. -/
inductive Answered (i : Instr) (s t : State) : Prop
  | invalidArgument (cause : ArgumentCause s i) (ht : t = (s.issued i).reply (.err .invalidArgument none) none false 0)
  | invalidState (cause : StateCause s i) (ht : t = (s.issued i).reply (.err .invalidState none) none false 0)
  | ran (hargument : ¬ArgumentCause s i) (hstate : ¬StateCause s i) (hstatus : t.res.status ∈ bodyStatuses)

theorem exec_answered {i : Instr} {s t : State} (h : exec i s = .next t) : Answered i s t := by
  by_cases hi : i = .init
  · subst hi
    rcases exec_init_cases s with ⟨hok, he⟩ | ⟨hbad, he⟩ <;> obtain rfl := Host.Outcome.next.inj (he.symm.trans h)
    · exact .ran (by simp [argumentCause_init_iff, hok]) (not_stateCause_init s) List.mem_cons_self
    · exact .invalidArgument ((argumentCause_init_iff s).mpr hbad) rfl
  · rcases exec_result i s hi with ⟨hc, he⟩ | ⟨hc, hn, he⟩ | ⟨hc, hn, ha, he⟩ | ⟨hc, hn, ha, x, hx, he⟩ <;>
      obtain rfl := Host.Outcome.next.inj (he.symm.trans h)
    · exact .invalidArgument (.inl hc) rfl
    · exact .invalidState ⟨hc, hi, hn⟩ rfl
    · exact .invalidArgument ((argumentCause_iff_of_initialized hc hi hn).mpr ha) rfl
    · exact .ran (by simp [argumentCause_iff_of_initialized hc hi hn, ha]) (fun hs => by simp [StateCause, hn] at hs) hx.fromBody.status

/-- Settles O49: the two causes exclude each other, and a body returns neither class. -/
theorem errorCauses : Obligations.ErrorCauses := by
  intro s t i h
  show (_ ↔ ArgumentCause s i) ∧ (_ ↔ StateCause s i) ∧ _
  cases exec_answered h with
  | invalidArgument cause ht =>
    have hstate : ¬StateCause s i := fun hs => hs.not_argumentCause cause
    rw [if_neg fun ⟨hn, hc, hi⟩ => hstate ⟨hc, hi, hn⟩]
    subst ht
    simp [CmdResult.status, cause, hstate]
  | invalidState cause ht =>
    have ⟨hc, hi, hn⟩ := cause
    rw [if_pos ⟨hn, hc, hi⟩]
    subst ht
    simp [CmdResult.status, cause, cause.not_argumentCause]
  | ran hargument hstate hstatus =>
    simp only [bodyStatuses, List.mem_cons, List.not_mem_nil, or_false] at hstatus
    rcases hstatus with hs | hs | hs <;> simp [hs, hargument, hstate]

/-! ### The direction of the line (42_transaction.md Table TO, 60_exceptions.md Table EL) -/

/-- The line in `t` is as the result on the response port says: by the outcome it carries, and on plain success as `driving` says. -/
structure LineFollowsResult (driving : Bool) (t : State) : Prop where
  carried : ∀ o, t.res.info = some o → t.link.driving = drivesAfter o
  success : t.res.info = none → t.res.status = .ok → t.link.driving = driving

/-- An error that carries no outcome says nothing of the line. -/
theorem lineFollowsResult_refused (driving : Bool) (c : ErrorClass) (s : State) :
    LineFollowsResult driving (s.reply (.err c none) none false 0) := ⟨nofun, nofun⟩

/-- What `direction` says of a loop, read on the response port. -/
theorem CmdResult.direction.lineFollowsResult {isRead : Bool} {r : CmdResult} {u : State} (h : r.direction isRead u) :
    LineFollowsResult (!isRead) (finish r u) := by
  cases r with
  | ok | okWord =>
    obtain ⟨hline, rfl⟩ := h
    exact ⟨nofun, fun _ _ => hline⟩
  | okBit | okOutcome => cases h
  | err c info =>
    refine ⟨fun o ho => ?_, nofun⟩
    obtain rfl : info = some o := ho
    exact h

/-- A command is its entry (R109) around a body, and its refusals say nothing of the line. -/
theorem line_of_runCommand {driving ok : Bool} {body : State → CmdResult × State} {s t : State}
    (h : Host.Outcome.next (φ := Fault) (ρ := Refusal) (runCommand ok body s) = .next t)
    (hb : ∀ u, LineFollowsResult driving (finish (body u).1 (body u).2)) : LineFollowsResult driving t := by
  obtain rfl := Host.Outcome.next.inj h
  cases hn : s.link.initialized with
  | false => rw [runCommand_notInitialised ok body s hn]; exact lineFollowsResult_refused ..
  | true =>
    cases ok with
    | false => rw [runCommand_badArgument body s hn]; exact lineFollowsResult_refused ..
    | true => rw [runCommand_runs body s hn]; exact hb (begin s)

/-- `transfer` always carries an outcome (R152). -/
theorem transferBody_line (driving : Bool) (u : State) : LineFollowsResult driving (finish (transferBody u).1 (transferBody u).2) where
  carried o ho := by
    obtain rfl : (frame u.request u).1 = o := Option.some.inj ho
    exact frame_direction u.request u
  success := nofun

theorem retry_line (q : Request) (u : State) : LineFollowsResult (!q.isRead) (finish (retry q u).1 (retry q u).2) :=
  (retry_direction q u).lineFollowsResult

theorem apReadBody_line (u : State) : LineFollowsResult false (finish (apReadBody u).1 (apReadBody u).2) :=
  (apReadBody_direction u).lineFollowsResult

/-- `clearErrors` is one write (R176). -/
theorem clearErrorsBody_line (u : State) : LineFollowsResult true (finish (clearErrorsBody u).1 (clearErrorsBody u).2) := by
  obtain ⟨hline, hok | ⟨c, o, herr, ho⟩⟩ := clearErrors_direction u
  · rw [hok]; exact CmdResult.direction.lineFollowsResult (isRead := false) ⟨hline, rfl⟩
  · rw [herr]; exact CmdResult.direction.lineFollowsResult (isRead := false) (hline.trans ho.symm)

/-- Which way a command of frames leaves the line when it succeeds without an outcome: released after a word read (Table EL). -/
def drivesOnSuccess : Instr → Bool
  | .dpRead _ => false
  | .apRead _ => false
  | _         => true

theorem exec_loop_line {i : Instr} {q : Request} {s t : State} (hq : loopRequest i = some q) (h : exec i s = .next t) :
    LineFollowsResult (drivesOnSuccess i) t := by
  cases i with
  | dpRead a => exact line_of_runCommand h fun u => retry_line ⟨u.op.addr, false, true, 0#32⟩ u
  | dpWrite a d => exact line_of_runCommand h fun u => retry_line ⟨u.op.addr, false, false, u.op.wdata⟩ u
  | apWrite a d => exact line_of_runCommand h fun u => retry_line ⟨u.op.addr, true, false, u.op.wdata⟩ u
  | _ => cases hq

/-- A refusal moves no pin (Table EL). -/
theorem exec_invalidArgument_link {i : Instr} {s t : State} (h : exec i s = .next t) (ht : t.res.status = .error .invalidArgument) :
    t.link = s.link := by
  obtain ⟨-, -, hrefused, -⟩ := errorCauses s t i h
  rw [hrefused (.inl ht)]
  exact issued_link i s

/-- Settles O50: each command is its entry around a body whose result says which way the line is left. -/
theorem directionAfter : Obligations.DirectionAfter := by
  intro s t i _ h hi
  have hline : LineFollowsResult (drivesOnSuccess i) t := by
    rcases hi with hi | ⟨a, p, r, d, rfl⟩ | ⟨a, rfl⟩ | ⟨q, hq⟩
    · obtain rfl := List.mem_singleton.mp hi
      exact line_of_runCommand h clearErrorsBody_line
    · exact line_of_runCommand h (transferBody_line true)
    · exact line_of_runCommand h apReadBody_line
    · exact exec_loop_line hq h
  exact ⟨hline.carried, hline.success, exec_invalidArgument_link h⟩

end Sys2Proof.Machine
end

section
/-! SUPPORT. Reset and hazards (70_reset_and_hazards.md): what a step does without a command, how many cycles an instruction can take, and
that the half-period delay decides nothing. -/

namespace Sys2Proof.Machine

/-! ### The step (R220; 10_state.md R32) -/

/-- Settles O6: the other branches of `step`. -/
theorem stepWithoutCommand : Obligations.StepWithoutCommand := by
  refine fun s => ⟨fun hpar hbusy hport => ?_, fun hpar hbusy => ?_, fun hpar hbusy w rest e hport hdec => ?_, step_lineReset_short⟩
  · simp [step, hpar, hbusy, hport]
  · simp [step, hpar, hbusy]
  · simp [step, hpar, hbusy, hport, hdec]

/-- What a step that answers a next state has found, and which of its two branches it took. -/
theorem step_next_inv {s t : State} (h : step s = .next t) :
    paramsLegal s.par = true ∧ s.busy = false ∧
      ((s.port = [] ∧ t = s) ∨
        ∃ w rest i, s.port = w :: rest ∧ decode w.bytes = .instr i ∧ exec i (s.accept w rest) = .next t) := by
  obtain ⟨hempty, hhost, hbytes, -⟩ := stepWithoutCommand s
  cases hpar : paramsLegal s.par with
  | false => simp [step, hpar] at h
  | true =>
    cases hbusy : s.busy with
    | true => cases (hhost hpar hbusy).symm.trans h
    | false =>
      refine ⟨rfl, rfl, ?_⟩
      cases hport : s.port with
      | nil => exact .inl ⟨rfl, Host.Outcome.next.inj (h.symm.trans (hempty hpar hbusy hport))⟩
      | cons w rest =>
        cases hdec : decode w.bytes with
        | rejected e => cases (hbytes hpar hbusy w rest e hport hdec).symm.trans h
        | instr i => exact .inr ⟨w, rest, i, rfl, hdec, (stepRunsDecoded s w rest i hpar hbusy hport hdec).symm.trans h⟩

/-! ### The half-period delay (R240) -/

/-- A configuration the host drives with a word replaces the delay on the configuration port. -/
theorem accept_withDelay (s : State) (d e : Nat) (w : PortWord) (rest : List PortWord) :
    ∃ e', (s.withDelay d e).accept w rest = (s.accept w rest).withDelay d e' := by
  obtain ⟨bytes, config⟩ := w
  cases config with
  | none => exact ⟨e, rfl⟩
  | some c => exact ⟨c.halfDelay, rfl⟩

/-- Whether a configuration is accepted does not depend on its delay (R101), and an accepted one brings its delay into force (R100). -/
theorem exec_init_withDelay {s t : State} (d e : Nat) (h : exec .init s = .next t) :
    ∃ d' e', exec .init (s.withDelay d e) = .next (t.withDelay d' e') := by
  have hconfig : configOk (s.withDelay d e).par (s.withDelay d e).op.config = configOk s.par s.op.config := rfl
  rcases exec_init_cases s with ⟨hok, he⟩ | ⟨hbad, he⟩ <;> obtain rfl := Host.Outcome.next.inj (he.symm.trans h)
  · exact ⟨e, e, ((exec_init_cases (s.withDelay d e)).resolve_right fun hbad => by simp [hconfig, hok] at hbad).2⟩
  · exact ⟨d, e, ((exec_init_cases (s.withDelay d e)).resolve_left fun hok => by simp [hconfig, hbad] at hok).2⟩

theorem withDelay_eq_mask (s : State) (d e : Nat) :
    s.withDelay d e =
      s.mask { s.cfg with halfDelay := d } s.link.connected { s.op with config := { s.op.config with halfDelay := e } } := rfl

/-- Every instruction takes two states that differ only in the delays to two such states: `init` by its cases, any other by
`exec_masked`. -/
theorem exec_withDelay {i : Instr} {s t : State} (d e : Nat) (h : exec i s = .next t) :
    ∃ d' e', exec i (s.withDelay d e) = .next (t.withDelay d' e') := by
  by_cases hi : i = .init
  · subst hi
    exact exec_init_withDelay d e h
  · obtain ⟨k, hk, hmask⟩ := exec_masked i hi { s.cfg with halfDelay := d } s.link.connected { s.op.config with halfDelay := e } s t rfl h
    obtain rfl := hk rfl
    obtain ⟨hop, hcfg⟩ := exec_op_cfg i s t hi h
    exact ⟨d, e, by simpa only [withDelay_eq_mask, hop, hcfg, issued_config] using hmask⟩

/-- Settles O57: `step` chooses its branch by fields that hold no delay, and the instruction it runs keeps the two states alike. -/
theorem halfDelayHasNoEffect : Obligations.HalfDelayHasNoEffect := by
  intro s t d e h
  obtain ⟨hpar, hbusy, ⟨hport, rfl⟩ | ⟨w, rest, i, hport, hdec, hexec⟩⟩ := step_next_inv h
  · exact ⟨d, e, (stepWithoutCommand _).1 hpar hbusy hport⟩
  · obtain ⟨e₁, haccept⟩ := accept_withDelay s d e w rest
    obtain ⟨d', e', hdelayed⟩ := exec_withDelay d e₁ hexec
    rw [← haccept] at hdelayed
    exact ⟨d', e', (stepRunsDecoded (s.withDelay d e) w rest i hpar hbusy hport hdec).trans hdelayed⟩

/-! ### Every instruction returns, and within how many cycles (R241, R242) -/

theorem exec_isNext (i : Instr) (s : State) : ∃ t, exec i s = .next t := by
  cases i <;> exact ⟨_, rfl⟩

/-- A run between entry and return appends no more cycles than its bound (R40). -/
theorem Ran.appends {i : Instr} {u : State} {x : CmdResult × State} (h : Ran i u x) : Appends u x.2 (maxCycles u i) := by
  cases h with
  | refused | init => exact .refl u _
  | body _ _ h =>
    cases h with
    | wire r t _ w => exact w.appends
    | reset | connected => exact .refl u _

/-- The bound reads the parameters and the turnaround owed, and nothing else. -/
theorem maxCycles_congr {s t : State} (hpar : s.par = t.par) (hlead : lead s = lead t) (i : Instr) : maxCycles s i = maxCycles t i := by
  unfold maxCycles
  rw [hpar, hlead]

/-- Issuing an instruction and its entry move neither the parameters nor the line (R30, R109). -/
theorem maxCycles_entered (i : Instr) (s : State) : maxCycles (begin (s.issued i)) i = maxCycles s i := by
  rw [issued_eq]
  exact maxCycles_congr rfl rfl i

/-- Settles O52: an instruction is its entry, a run that appends no more than its bound, and the return, which clears `busy`. -/
theorem everyInstructionReturns : Obligations.EveryInstructionReturns := by
  intro i s
  obtain ⟨t, ht⟩ := exec_isNext i s
  obtain ⟨x, hx, rfl⟩ := exec_ran ht
  obtain ⟨cs, htrace, hlength⟩ := hx.appends
  rw [maxCycles_entered] at hlength
  exact ⟨_, ht, rfl, cs, by simpa using htrace, hlength⟩

/-- The bounds of any state with Table P's defaults and the line driven are those of one such state. -/
theorem exec_appends_default {s : State} (hpar : s.par = tableP) (hdriving : s.link.driving = true) {i : Instr} {n : Nat}
    (hn : maxCycles (initialise State.reset) i = n) : ∃ t, exec i s = .next t ∧ Appends s t n := by
  have hlead : lead s = lead (initialise State.reset) := by simp [lead, hdriving]
  obtain ⟨t, ht, -, hcycles⟩ := everyInstructionReturns i s
  rw [maxCycles_congr hpar hlead, hn] at hcycles
  exact ⟨t, ht, hcycles⟩

/-- Settles O53: the figures of R241 are the bounds of O52 at Table P's defaults. -/
theorem defaultBounds : Obligations.DefaultBounds := by
  intro s hpar hdriving
  have within {i : Instr} {n : Nat} (hn : maxCycles (initialise State.reset) i = n) := exec_appends_default hpar hdriving hn
  exact ⟨within rfl, within rfl, fun _ => within rfl, within rfl, within rfl, fun _ => within rfl, fun _ => within rfl, within rfl,
    within rfl, within rfl, within rfl, fun _ _ _ _ => within rfl, fun _ => within rfl, fun _ _ => within rfl, fun _ => within rfl,
    fun _ _ => within rfl, within rfl⟩

end Sys2Proof.Machine
end
